-- ==== Sys2Proof/Word.lean ====
section
/-! DEFINITION. The words, the ports, per-port tables and the entry-point calls of the block. -/

namespace Sys2Proof

/-- A 32-bit register (R9). -/
abbrev Word := BitVec 32

/-- A byte of a register, an AUX payload or an EDID buffer. -/
abbrev Byte := BitVec 8

/-- The logical ports, `PORTS` = A to F with indices 0 to 5 (R8, D2). -/
inductive Port where
  | A | B | C | D | E | F
  deriving DecidableEq, Repr

/-- The index of a port (R8). -/
def Port.index : Port → Nat
  | .A => 0
  | .B => 1
  | .C => 2
  | .D => 3
  | .E => 4
  | .F => 5

/-- One value for each port: the six AUX blocks, the Display Path Table, the transport states (R28 to R30). -/
structure PortMap (α : Type) where
  a : α
  b : α
  c : α
  d : α
  e : α
  f : α
  deriving DecidableEq, Repr

/-- Lookup of port `p` (R126). -/
def PortMap.get {α : Type} (m : PortMap α) : Port → α
  | .A => m.a
  | .B => m.b
  | .C => m.c
  | .D => m.d
  | .E => m.e
  | .F => m.f

/-- The table with port `p`'s value replaced. -/
def PortMap.set {α : Type} (m : PortMap α) (p : Port) (x : α) : PortMap α :=
  match p with
  | .A => { m with a := x }
  | .B => { m with b := x }
  | .C => { m with c := x }
  | .D => { m with d := x }
  | .E => { m with e := x }
  | .F => { m with f := x }

/-- The table that holds `x` for every port. -/
def PortMap.fill {α : Type} (x : α) : PortMap α := ⟨x, x, x, x, x, x⟩

/-- The operands that travel beside an access descriptor: the value `v` of a write and the arguments of
`configure` (R80, R81). -/
structure CallOperands where
  value : BitVec 64
  mon   : Bool
  dp    : Bool
  edid  : Option (List Byte)
  deriving DecidableEq, Repr

/-- Operands of zeros. -/
def CallOperands.zero : CallOperands := ⟨0, false, false, none⟩

/-- One call of an entry point (R80), or the same call spelled by an access descriptor (R81). The offset and the
width of a GMBUS call are any numbers, so that the malformed widths of R67 can be written. -/
inductive Request where
  | gmbusRead (off width : Nat)
  | gmbusWrite (off width : Nat) (value : BitVec 64)
  | auxWrite (p : Port) (off : Word) (value : Word)
  | auxRead (p : Port) (off : Word)
  | initTransport (p : Port)
  | configure (p : Port) (mon dp : Bool) (edid : Option (List Byte))
  | controllerReset
  | descriptor (d : Word) (ops : CallOperands)
  deriving DecidableEq, Repr

end Sys2Proof
end

