-- ==== Sys2Proof/Config.lean ====
section
/-! DEFINITION. The implementation parameters of R8, the constants the source fixes, and the one free value. -/

namespace Sys2Proof.Config

/-- `GEN`: the hardware generation that selects the pin table (R8, R122, R124). -/
inductive Generation where
  | legacy | bxt | cnp
  deriving DecidableEq, Repr

/-- `INUSE_READ_RETURNS` (R8, R170). -/
inductive InuseReadReturns where
  | old | new
  deriving DecidableEq, Repr

/-- `DATA_PARTIAL_UPPER` (R8, R166). -/
inductive DataPartialUpper where
  | keep | zero
  deriving DecidableEq, Repr

/-- `AUX_BADLEN_POLICY` (R8, R204). -/
inductive AuxBadlenPolicy where
  | abort | sentinel
  deriving DecidableEq, Repr

/-- `PIN_TABLE`: for each generation, what each of the eight selectors resolves to (R8, R122). -/
structure PinTable where
  legacy : Vector (Option Port) 8
  bxt    : Vector (Option Port) 8
  cnp    : Vector (Option Port) 8
  deriving DecidableEq, Repr

/-- The tables of R122. -/
def defaultPinTable : PinTable where
  legacy := #v[none, none, some .E, none, some .C, some .B, some .D, none]
  bxt    := #v[none, some .B, some .C, some .D, none, none, none, none]
  cnp    := #v[none, some .B, some .C, some .D, some .E, none, none, none]

/-- The parameters of R8 that may vary. State carries them because `exec` has no other argument; no step writes
them. DESIGN CHOICE, safe: log 1. -/
structure Params where
  gen                    : Generation
  pinTable               : PinTable
  edidAddr               : BitVec 7
  auxNakByte             : Byte
  auxAckCode             : Byte
  controlLatchUnresolved : Bool
  inuseReadReturns       : InuseReadReturns
  dataPartialUpper       : DataPartialUpper
  auxBadlenPolicy        : AuxBadlenPolicy
  auxBareReadReplySize   : BitVec 5
  regReset               : Word
  deriving DecidableEq, Repr

/-- The default of `EDID_ADDR`, the supported 7-bit slave address (R8). -/
def defaultEdidAddr : BitVec 7 := 0x50

/-- The defaults of R8 for a given generation, which has none. -/
def Params.defaults (g : Generation) : Params where
  gen                    := g
  pinTable               := defaultPinTable
  edidAddr               := defaultEdidAddr
  auxNakByte             := 0xFF
  auxAckCode             := 0x00
  controlLatchUnresolved := false
  inuseReadReturns       := .old
  dataPartialUpper       := .keep
  auxBadlenPolicy        := .abort
  auxBareReadReplySize   := 2
  regReset               := 0

/-- `EDID_ADDR` as the 16-bit address of an AUX header (R96, R193). -/
def Params.auxEdidAddr (params : Params) : BitVec 16 := params.edidAddr.setWidth 16

/-- `EDID_LEN[p]` of a port that has no EDID (R8, D13). -/
def defaultEdidLen : Nat := 128

/-- `GMBUS_BASE`, informational: the block uses window offsets (R8, R63). -/
def gmbusBase : Nat := 0xC5100

/-- The absolute base of port `p`'s AUX block, informational (R63). -/
def auxBase (p : Port) : Nat := 0x64000 + 0x100 * p.index

/-- FREE VALUE. The byte at the cursor of a port whose table entry claims a monitor but holds no EDID byte there:
R128 rules such an entry out and no run reaches one, so no rule says what is read. DESIGN CHOICE, safe: log 9. -/
opaque absentEdidByte : Port → Nat → Byte

end Sys2Proof.Config
end

