-- ==== Sys2Proof/Machine/Fields.lean ====
section
/-! DEFINITION. Bits, bytes and fields of words: the helpers every rule reads its operands with. No state. -/

namespace Sys2Proof.Machine

/-! ### Bits and bytes of a word (R10) -/

/-- `v[i]`. -/
def bit (v : Word) (i : Nat) : Bool := v.getLsbD i

/-- `v` with bit `i` set to `x`. -/
def setBit (v : Word) (i : Nat) (x : Bool) : Word :=
  if x then v ||| (1#32 <<< i) else v &&& ~~~(1#32 <<< i)

/-- `v[8j+7 : 8j]`, byte `j` of a word, byte 0 least significant (R64). -/
def byteOf (v : Word) (j : Nat) : Byte := v.extractLsb' (8 * j) 8

/-- `v` with byte `j` replaced by `b` (R60). -/
def setByte (v : Word) (j : Nat) (b : Byte) : Word :=
  (v &&& ~~~(0xFF#32 <<< (8 * j))) ||| (b.setWidth 32 <<< (8 * j))

/-- The word whose bytes are `b0` (least significant) to `b3` (R64). -/
def packWord (b0 b1 b2 b3 : Byte) : Word := b3 ++ b2 ++ b1 ++ b0

/-- The low `8w` bits of a value, as the value a read of width `w` returns: "truncated/extended to the requested
access width" (R66). -/
def truncTo (w : Nat) (x : BitVec 64) : BitVec 64 := (x.setWidth (8 * w)).setWidth 64

/-! ### The access descriptor (R81) -/

/-- `IF`, bits 31:30. -/
def descIf (d : Word) : BitVec 2 := d.extractLsb' 30 2

/-- `DIR`, bit 29. -/
def descDir (d : Word) : Bool := bit d 29

/-- `PORT`, bits 28:26. -/
def descPort (d : Word) : BitVec 3 := d.extractLsb' 26 3

/-- `WL`, bits 25:24, the log2 of the width. -/
def descWl (d : Word) : BitVec 2 := d.extractLsb' 24 2

/-- `HOP`, bits 23:16. -/
def descHop (d : Word) : BitVec 8 := d.extractLsb' 16 8

/-- Bits 15:8, which must be 0. -/
def descZero (d : Word) : BitVec 8 := d.extractLsb' 8 8

/-- `OFF`, bits 7:0. -/
def descOff (d : Word) : BitVec 8 := d.extractLsb' 0 8

/-- The width a descriptor gives, `2^WL` (R81). -/
def descWidth (d : Word) : Nat := 2 ^ (descWl d).toNat

/-- The port with a given index; 6 and 7 are no port (R81). -/
def portOfIndex (n : BitVec 3) : Option Port :=
  match n.toNat with
  | 0 => some .A
  | 1 => some .B
  | 2 => some .C
  | 3 => some .D
  | 4 => some .E
  | 5 => some .F
  | _ => none

/-! ### CONTROL (R22, R84) -/

/-- `CTL0.PIN`, the pin selector `v[2:0]`. -/
def pinSelector (v : Word) : BitVec 3 := v.extractLsb' 0 3

/-! ### COMMAND (R23, R85) -/

/-- `CMD.SW_CLR_INT`, bit 31. -/
def cmdClr (v : Word) : Bool := bit v 31

/-- `CMD.SW_RDY`, bit 30. -/
def cmdRdy (v : Word) : Bool := bit v 30

/-- `CMD.CYCLE`, bits 27:25. -/
def cmdCycle (v : Word) : BitVec 3 := v.extractLsb' 25 3

/-- `CMD.COUNT`, bits 24:16, zero-extended to 16 bits. -/
def cmdCount (v : Word) : BitVec 16 := (v.extractLsb' 16 9).setWidth 16

/-- `CMD.INDEX`, bits 15:8. -/
def cmdIndex (v : Word) : BitVec 8 := v.extractLsb' 8 8

/-- The index-cycle bit, bit 26 of a COMMAND word (R24). -/
def cmdIndexed (v : Word) : Bool := bit v 26

/-- `CMD.ADDR`, bits 7:1. -/
def cmdAddr (v : Word) : BitVec 7 := v.extractLsb' 1 7

/-- `CMD.DIR`, bit 0; true is read from slave. -/
def cmdDir (v : Word) : Bool := bit v 0

/-- A decoded COMMAND value: the written value with SW_RDY cleared (R154). -/
def cmdStrip (v : Word) : Word := setBit v 30 false

/-! ### AUXCTL and the AUX request header (R28, R87, R96) -/

/-- `AUXCTL.SEND_BUSY` of a written value, the trigger (R87). -/
def auxTrigger (v : Word) : Bool := bit v 31

/-- `AUXCTL.SIZE` of a written value, the request length, bits 24:20 (R87). -/
def auxLen (v : Word) : BitVec 5 := v.extractLsb' 20 5

/-- `addr`, DATA1 bits 23:8 (R96). -/
def auxAddr (d1 : Word) : BitVec 16 := d1.extractLsb' 8 16

/-- `op`, DATA1 bits 31:28 (R96). -/
def auxOp (d1 : Word) : BitVec 4 := d1.extractLsb' 28 4

/-- `isRead`: `op[0] = 1` (R96). -/
def auxIsRead (d1 : Word) : Bool := (auxOp d1).getLsbD 0

/-- `mot`: `op[2] = 1`, the middle-of-transaction flag (R96). -/
def auxMot (d1 : Word) : Bool := (auxOp d1).getLsbD 2

/-- Byte `m[i]` of an AUX payload in the word that holds it, most significant byte first (R95). -/
def auxPayloadByte (word : Word) (i : Nat) : Byte := byteOf word (3 - i % 4)

/-- The value a triggered write leaves in AUXCTL: DONE set, SIZE = `size`, every other bit 0 (R98, R196). -/
def auxReplyControl (size : BitVec 5) : Word := (1#32 <<< 30) ||| (size.setWidth 32 <<< 20)

/-- The value a reply leaves in DATA1: the ACK code in the top byte, the data byte below it (R98, R205). -/
def auxReplyData (ack b : Byte) : Word := (ack.setWidth 32 <<< 24) ||| (b.setWidth 32 <<< 16)

/-- The six registers of an AUX block (R28). -/
inductive AuxReg where
  | auxctl | data1 | data2 | data3 | data4 | data5
  deriving DecidableEq, Repr

/-- The fixed table from the low byte of an AUX offset to a register (R190). -/
def auxRegister (off : Byte) : Option AuxReg :=
  match off.toNat with
  | 0x10 => some .auxctl
  | 0x14 => some .data1
  | 0x18 => some .data2
  | 0x1C => some .data3
  | 0x20 => some .data4
  | 0x24 => some .data5
  | _ => none

/-- `off[7:0]` of an AUX offset; no other bit of it is read (R190). -/
def auxLowOffset (off : Word) : Byte := off.extractLsb' 0 8

end Sys2Proof.Machine
end

