-- ==== Sys2Proof/Syntax.lean ====
section
/-! DEFINITION. The instructions: one constructor for each row of spec/opcode_table.json, in the table's order. -/

namespace Sys2Proof

/-- The operations of the block (R99, R105). `w` is a width in bytes and `off` an offset in the GMBUS window; `v` is
the value written, of which a GMBUS write of `w` bytes uses the low `8w` bits; `d` is an access descriptor; `d1` is
the latched DATA1 word that a triggered AUXCTL write decodes as its header. -/
inductive Instr where
  -- format ACCESS (R81, R82)
  | invalidAuxport (d : Word)
  | invalidHostport (d : Word)
  | grStatus (w : Nat)
  | grData (w : Nat)
  | grPass (off w : Nat)
  | gwControl (w : Nat) (v : BitVec 64)
  | gwCommand (w : Nat) (v : BitVec 64)
  | gwStatus (w : Nat) (v : BitVec 64)
  | gwData (w : Nat) (v : BitVec 64)
  | gwPass (off w : Nat) (v : BitVec 64)
  | awCtl (p : Port) (v : Word)
  | awData1 (p : Port) (v : Word)
  | awData2 (p : Port) (v : Word)
  | awData3 (p : Port) (v : Word)
  | awData4 (p : Port) (v : Word)
  | awData5 (p : Port) (v : Word)
  | awBadoff (p : Port) (off : Byte) (v : Word)
  | ar (p : Port) (off : Byte)
  | hostInit (p : Port)
  | hostConfig (p : Port) (mon dp : Bool) (edid : Option (List Byte))
  | hostReset
  | invalid (d : Word)
  -- format CMD: the forms of a COMMAND write of the value v (R99, R105)
  | cmdSwclrHeld (v : Word)
  | cmdSwclrDone (v : Word)
  | cmdNocycle (v : Word)
  | cmdStop (v : Word)
  | cmdNidxWait (v : Word)
  | cmdIdxWait (v : Word)
  | cmdNidxStop (v : Word)
  | cmdIdxStop (v : Word)
  | cmdRsvd2 (v : Word)
  | cmdRsvd6 (v : Word)
  -- format AUXREQ: the classes of an AUXCTL write of v while DATA1 holds d1 (R97, R105)
  | auxreqClear (p : Port) (v d1 : Word)
  | auxreqStop (p : Port) (v d1 : Word)
  | auxreqAddr0 (p : Port) (v d1 : Word)
  | auxreqStartEdid (p : Port) (v d1 : Word)
  | auxreqStartOther (p : Port) (v d1 : Word)
  | auxreqSeek (p : Port) (v d1 : Word)
  | auxreqWriteOther (p : Port) (v d1 : Word)
  | auxreqRead (p : Port) (v d1 : Word)
  | auxreqReadBadlen (p : Port) (v d1 : Word)
  deriving DecidableEq, Repr

end Sys2Proof
end

