-- ==== Sys2Proof/WellFormed.lean ====
section
/-! DEFINITION. Well-formed instructions: the operands are those the row's encoding admits, and no earlier row of
the table takes the word. Written from the prose of R81, R97, R99 and R105, not from the masks of the table. -/

namespace Sys2Proof

open Sys2Proof.Machine

/-- A width an access descriptor can give (R81). -/
def widthOk (w : Nat) : Bool := w == 1 || w == 2 || w == 4 || w == 8

/-- An offset an access descriptor can give (R81). -/
def offsetOk (off : Nat) : Bool := decide (off < 256)

/-- `PORT` is 6 or 7 (R81). -/
def portBad (d : Word) : Bool := decide (6 ≤ (descPort d).toNat)

/-- An AUX descriptor with no port (R81, R105). -/
def spellsBadAuxPort (d : Word) : Bool := descIf d == 1 && portBad d

/-- A HOST `init_transport` or `configure` descriptor with no port (R81, R105). -/
def spellsBadHostPort (d : Word) : Bool := descIf d == 2 && portBad d && decide ((descHop d).toNat ≤ 1)

/-- A descriptor that spells no operation for another reason: interface 3, nonzero bits 15:8, or a HOST operation
above 2 (R81). -/
def spellsNothing (d : Word) : Bool :=
  !spellsBadAuxPort d && !spellsBadHostPort d &&
    (descIf d == 3 || descZero d != 0 || (descIf d == 2 && decide (3 ≤ (descHop d).toNat)))

/-- The words of an AUX request are triggered and have length 3 (R97, classes 2 to 5). -/
def isBare (v : Word) : Bool := auxTrigger v && auxLen v == 3

/-- The words of an AUX request are triggered and have a length other than 3 (R97, classes 6 to 9). -/
def isLong (v : Word) : Bool := auxTrigger v && auxLen v != 3

/-- The check of an instruction's operands. -/
def Instr.wellFormed : Instr → Bool
  | .invalidAuxport d => spellsBadAuxPort d
  | .invalidHostport d => spellsBadHostPort d
  | .grStatus w => widthOk w
  | .grData w => widthOk w
  | .grPass off w => widthOk w && offsetOk off && off != 0x08 && off != 0x0C
  | .gwControl w _ => widthOk w
  | .gwCommand w _ => widthOk w
  | .gwStatus w _ => widthOk w
  | .gwData w _ => widthOk w
  | .gwPass off w _ =>
    widthOk w && offsetOk off && off != 0x00 && off != 0x04 && off != 0x08 && off != 0x0C
  | .awCtl _ _ => true
  | .awData1 _ _ => true
  | .awData2 _ _ => true
  | .awData3 _ _ => true
  | .awData4 _ _ => true
  | .awData5 _ _ => true
  | .awBadoff _ off _ => (auxRegister off).isNone
  | .ar _ _ => true
  | .hostInit _ => true
  | .hostConfig _ _ _ _ => true
  | .hostReset => true
  | .invalid d => spellsNothing d
  | .cmdSwclrHeld v => cmdClr v
  | .cmdSwclrDone v => !cmdClr v
  | .cmdNocycle v => cmdCycle v == 0
  | .cmdStop v => cmdCycle v == 4
  | .cmdNidxWait v => cmdCycle v == 1
  | .cmdIdxWait v => cmdCycle v == 3
  | .cmdNidxStop v => cmdCycle v == 5
  | .cmdIdxStop v => cmdCycle v == 7
  | .cmdRsvd2 v => cmdCycle v == 2
  | .cmdRsvd6 v => cmdCycle v == 6
  | .auxreqClear _ v _ => !auxTrigger v
  | .auxreqStop _ v d1 => isBare v && !auxMot d1
  | .auxreqAddr0 _ v d1 => isBare v && auxMot d1 && auxAddr d1 == 0
  | .auxreqStartEdid _ v d1 => isBare v && auxMot d1 && auxAddr d1 == 0x50
  | .auxreqStartOther _ v d1 => isBare v && auxMot d1 && auxAddr d1 != 0 && auxAddr d1 != 0x50
  | .auxreqSeek _ v d1 => isLong v && !auxIsRead d1 && auxAddr d1 == 0x50
  | .auxreqWriteOther _ v d1 => isLong v && !auxIsRead d1 && auxAddr d1 != 0x50
  | .auxreqRead _ v d1 => isLong v && auxIsRead d1 && auxLen v == 4
  | .auxreqReadBadlen _ v d1 => isLong v && auxIsRead d1 && auxLen v != 4

end Sys2Proof
end

