-- ==== Sys2Proof/Decode.lean ====
section
/-! DEFINITION. Decoding and encoding. The three tables are spec/opcode_table.json, row for row, each matched first
row first with `key & mask = match` (R82, R105). Below them: decode, the routing of an entry-point call (R83, R140),
the encoder, and the table words the host asks about. -/

namespace Sys2Proof

open Sys2Proof.Machine

/-! ### The opcode table -/

/-- A row of the opcode table: what it names, its mask and its match (R105). -/
structure TableRow (ρ : Type) (n : Nat) where
  row     : ρ
  mask    : BitVec n
  pattern : BitVec n

/-- `key & mask = match` (R82, R105). -/
def rowMatches {ρ : Type} {n : Nat} (key : BitVec n) (r : TableRow ρ n) : Bool := key &&& r.mask == r.pattern

/-- The first row of a table that a key matches (R82, R105). -/
def firstRow {ρ : Type} {n : Nat} (table : List (TableRow ρ n)) (key : BitVec n) : Option ρ :=
  (table.find? (rowMatches key)).map TableRow.row

/-- The rows of format ACCESS. -/
inductive AccessRow where
  | invalidAuxport
  | invalidHostport
  | grStatus
  | grData
  | grPass
  | gwControl
  | gwCommand
  | gwStatus
  | gwData
  | gwPass
  | awCtl
  | awData1
  | awData2
  | awData3
  | awData4
  | awData5
  | awBadoff
  | ar
  | hostInit
  | hostConfig
  | hostReset
  | invalid
  deriving DecidableEq, Repr

/-- The rows of format CMD. -/
inductive CmdRow where
  | cmdSwclrHeld
  | cmdSwclrDone
  | cmdNocycle
  | cmdStop
  | cmdNidxWait
  | cmdIdxWait
  | cmdNidxStop
  | cmdIdxStop
  | cmdRsvd2
  | cmdRsvd6
  deriving DecidableEq, Repr

/-- The rows of format AUXREQ. -/
inductive AuxRow where
  | auxreqClear
  | auxreqStop
  | auxreqAddr0
  | auxreqStartEdid
  | auxreqStartOther
  | auxreqSeek
  | auxreqWriteOther
  | auxreqRead
  | auxreqReadBadlen
  deriving DecidableEq, Repr

/-- Format ACCESS: the key is the access descriptor (R105). -/
def accessTable : List (TableRow AccessRow 32) :=
  [
    ⟨.invalidAuxport, 0xD8000000, 0x58000000⟩,
    ⟨.invalidHostport, 0xD8FE0000, 0x98000000⟩,
    ⟨.grStatus, 0xE000FFFF, 0x8⟩,
    ⟨.grData, 0xE000FFFF, 0xC⟩,
    ⟨.grPass, 0xE000FF00, 0x0⟩,
    ⟨.gwControl, 0xE000FFFF, 0x20000000⟩,
    ⟨.gwCommand, 0xE000FFFF, 0x20000004⟩,
    ⟨.gwStatus, 0xE000FFFF, 0x20000008⟩,
    ⟨.gwData, 0xE000FFFF, 0x2000000C⟩,
    ⟨.gwPass, 0xE000FF00, 0x20000000⟩,
    ⟨.awCtl, 0xE000FFFF, 0x60000010⟩,
    ⟨.awData1, 0xE000FFFF, 0x60000014⟩,
    ⟨.awData2, 0xE000FFFF, 0x60000018⟩,
    ⟨.awData3, 0xE000FFFF, 0x6000001C⟩,
    ⟨.awData4, 0xE000FFFF, 0x60000020⟩,
    ⟨.awData5, 0xE000FFFF, 0x60000024⟩,
    ⟨.awBadoff, 0xE000FF00, 0x60000000⟩,
    ⟨.ar, 0xE000FF00, 0x40000000⟩,
    ⟨.hostInit, 0xC0FFFF00, 0x80000000⟩,
    ⟨.hostConfig, 0xC0FFFF00, 0x80010000⟩,
    ⟨.hostReset, 0xC0FFFF00, 0x80020000⟩,
    ⟨.invalid, 0x0, 0x0⟩
  ]

/-- Format CMD: key bit 32 is bit 31 of the latched COMMAND, bits 31:0 are the written value (R105). -/
def cmdTable : List (TableRow CmdRow 33) :=
  [
    ⟨.cmdSwclrHeld, 0x180000000, 0x180000000⟩,
    ⟨.cmdSwclrDone, 0x180000000, 0x100000000⟩,
    ⟨.cmdNocycle, 0x10E000000, 0x0⟩,
    ⟨.cmdStop, 0x10E000000, 0x8000000⟩,
    ⟨.cmdNidxWait, 0x10E000000, 0x2000000⟩,
    ⟨.cmdIdxWait, 0x10E000000, 0x6000000⟩,
    ⟨.cmdNidxStop, 0x10E000000, 0xA000000⟩,
    ⟨.cmdIdxStop, 0x10E000000, 0xE000000⟩,
    ⟨.cmdRsvd2, 0x10E000000, 0x4000000⟩,
    ⟨.cmdRsvd6, 0x10E000000, 0xC000000⟩
  ]

/-- Format AUXREQ: key bits 63:32 are the written AUXCTL value, bits 31:0 are the latched DATA1 (R105). -/
def auxTable : List (TableRow AuxRow 64) :=
  [
    ⟨.auxreqClear, 0x8000000000000000, 0x0⟩,
    ⟨.auxreqStop, 0x81F0000040000000, 0x8030000000000000⟩,
    ⟨.auxreqAddr0, 0x81F0000040FFFF00, 0x8030000040000000⟩,
    ⟨.auxreqStartEdid, 0x81F0000040FFFF00, 0x8030000040005000⟩,
    ⟨.auxreqStartOther, 0x81F0000040000000, 0x8030000040000000⟩,
    ⟨.auxreqSeek, 0x8000000010FFFF00, 0x8000000000005000⟩,
    ⟨.auxreqWriteOther, 0x8000000010000000, 0x8000000000000000⟩,
    ⟨.auxreqRead, 0x81F0000010000000, 0x8040000010000000⟩,
    ⟨.auxreqReadBadlen, 0x8000000010000000, 0x8000000010000000⟩
  ]

/-! ### Decode -/

/-- The words that spell an instruction: an access descriptor with the operands beside it, a CMD key, or an AUXREQ
key with the port of the access that carries it (R81, R105). -/
inductive CodeWord where
  | access (d : Word) (ops : CallOperands)
  | command (key : BitVec 33)
  | auxRequest (key : BitVec 64) (p : Port)
  deriving DecidableEq, Repr

/-- Why a word is no instruction. `noRow`: no row of the word's format matches (R105: this never happens).
`noFormat`: the number of bits is that of no format. `overWide`: a bit above the format's key is set. -/
inductive Reject where
  | noRow
  | noFormat
  | overWide
  deriving DecidableEq, Repr

/-- The instruction of an ACCESS row: its operands are the descriptor's fields and the operands beside it (R81). A
row that uses a port and has none in the descriptor is INVALID (R81); the two rows that come first catch it. -/
def accessInstr (row : AccessRow) (d : Word) (ops : CallOperands) : Instr :=
  let w := descWidth d
  let off := descOff d
  let v32 := ops.value.setWidth 32
  match row with
  | .invalidAuxport => .invalidAuxport d
  | .invalidHostport => .invalidHostport d
  | .grStatus => .grStatus w
  | .grData => .grData w
  | .grPass => .grPass off.toNat w
  | .gwControl => .gwControl w ops.value
  | .gwCommand => .gwCommand w ops.value
  | .gwStatus => .gwStatus w ops.value
  | .gwData => .gwData w ops.value
  | .gwPass => .gwPass off.toNat w ops.value
  | .hostReset => .hostReset
  | .invalid => .invalid d
  | .awCtl => withPort fun p => .awCtl p v32
  | .awData1 => withPort fun p => .awData1 p v32
  | .awData2 => withPort fun p => .awData2 p v32
  | .awData3 => withPort fun p => .awData3 p v32
  | .awData4 => withPort fun p => .awData4 p v32
  | .awData5 => withPort fun p => .awData5 p v32
  | .awBadoff => withPort fun p => .awBadoff p off v32
  | .ar => withPort fun p => .ar p off
  | .hostInit => withPort fun p => .hostInit p
  | .hostConfig => withPort fun p => .hostConfig p ops.mon ops.dp ops.edid
where
  withPort (k : Port → Instr) : Instr :=
    match portOfIndex (descPort d) with
    | some p => k p
    | none => .invalid d

/-- Decoding of an access descriptor: total, since the last row matches every descriptor (R105). -/
def decodeAccess (d : Word) (ops : CallOperands) : Instr :=
  accessInstr ((firstRow accessTable d).getD .invalid) d ops

/-- The form of a COMMAND write that a CMD row names (R99). -/
def cmdInstr (row : CmdRow) (v : Word) : Instr :=
  match row with
  | .cmdSwclrHeld => .cmdSwclrHeld v
  | .cmdSwclrDone => .cmdSwclrDone v
  | .cmdNocycle => .cmdNocycle v
  | .cmdStop => .cmdStop v
  | .cmdNidxWait => .cmdNidxWait v
  | .cmdIdxWait => .cmdIdxWait v
  | .cmdNidxStop => .cmdNidxStop v
  | .cmdIdxStop => .cmdIdxStop v
  | .cmdRsvd2 => .cmdRsvd2 v
  | .cmdRsvd6 => .cmdRsvd6 v

/-- The class of an AUXCTL write that an AUXREQ row names (R97). -/
def auxInstr (row : AuxRow) (p : Port) (v d1 : Word) : Instr :=
  match row with
  | .auxreqClear => .auxreqClear p v d1
  | .auxreqStop => .auxreqStop p v d1
  | .auxreqAddr0 => .auxreqAddr0 p v d1
  | .auxreqStartEdid => .auxreqStartEdid p v d1
  | .auxreqStartOther => .auxreqStartOther p v d1
  | .auxreqSeek => .auxreqSeek p v d1
  | .auxreqWriteOther => .auxreqWriteOther p v d1
  | .auxreqRead => .auxreqRead p v d1
  | .auxreqReadBadlen => .auxreqReadBadlen p v d1

/-- The 33-bit CMD key: bit 31 of the latched COMMAND above the written value (R105). -/
def cmdKey (oldClr : Bool) (v : Word) : BitVec 33 := BitVec.ofBool oldClr ++ v

/-- The 64-bit AUXREQ key: the written AUXCTL value above the latched DATA1 (R105). -/
def auxKey (v d1 : Word) : BitVec 64 := v ++ d1

/-- Decode. -/
def decode : CodeWord → Except Reject Instr
  | .access d ops => .ok (decodeAccess d ops)
  | .command key =>
    match firstRow cmdTable key with
    | some row => .ok (cmdInstr row (key.setWidth 32))
    | none => .error .noRow
  | .auxRequest key p =>
    match firstRow auxTable key with
    | some row => .ok (auxInstr row p (key.extractLsb' 32 32) (key.setWidth 32))
    | none => .error .noRow

/-! ### Routing of an entry-point call (R83, R99, R140) -/

/-- A GMBUS read, routed by its exact start offset (R140). -/
def routeGmbusRead (off w : Nat) : Instr :=
  if off = 0x08 then .grStatus w
  else if off = 0x0C then .grData w
  else .grPass off w

/-- A GMBUS write, routed by its exact start offset (R140). -/
def routeGmbusWrite (off w : Nat) (v : BitVec 64) : Instr :=
  if off = 0x00 then .gwControl w v
  else if off = 0x04 then .gwCommand w v
  else if off = 0x08 then .gwStatus w v
  else if off = 0x0C then .gwData w v
  else .gwPass off w v

/-- An AUX write, routed by the low byte of its offset (R99, R190). -/
def routeAuxWrite (p : Port) (off v : Word) : Instr :=
  match auxRegister (auxLowOffset off) with
  | some .auxctl => .awCtl p v
  | some .data1 => .awData1 p v
  | some .data2 => .awData2 p v
  | some .data3 => .awData3 p v
  | some .data4 => .awData4 p v
  | some .data5 => .awData5 p v
  | none => .awBadoff p (auxLowOffset off) v

/-- The operation of a call (R80, R99). -/
def route : Request → Instr
  | .gmbusRead off w => routeGmbusRead off w
  | .gmbusWrite off w v => routeGmbusWrite off w v
  | .auxWrite p off v => routeAuxWrite p off v
  | .auxRead p off => .ar p (auxLowOffset off)
  | .initTransport p => .hostInit p
  | .configure p mon dp edid => .hostConfig p mon dp edid
  | .controllerReset => .hostReset
  | .descriptor d ops => decodeAccess d ops

/-! ### Encode -/

/-- A descriptor from its fields (R81). -/
def descriptorOf (iface : BitVec 2) (dir : Bool) (port : BitVec 3) (wl : BitVec 2) (hop off : BitVec 8) : Word :=
  iface ++ BitVec.ofBool dir ++ port ++ wl ++ hop ++ 0#8 ++ off

/-- `WL` of a width: its log2 (R81). -/
def wlOf (w : Nat) : BitVec 2 :=
  if w = 2 then 1 else if w = 4 then 2 else if w = 8 then 3 else 0

/-- The `PORT` field of a port (R81). -/
def portField (p : Port) : BitVec 3 := BitVec.ofNat 3 p.index

/-- Operands that are a value alone. -/
def valueOperand (v : BitVec 64) : CallOperands := { CallOperands.zero with value := v }

/-- A GMBUS read of `w` bytes at `off`. -/
def encodeGmbusRead (off w : Nat) : CodeWord :=
  .access (descriptorOf 0 false 0 (wlOf w) 0 (BitVec.ofNat 8 off)) .zero

/-- A GMBUS write of `w` bytes of `v` at `off`. -/
def encodeGmbusWrite (off w : Nat) (v : BitVec 64) : CodeWord :=
  .access (descriptorOf 0 true 0 (wlOf w) 0 (BitVec.ofNat 8 off)) (valueOperand v)

/-- An AUX write of `v` at low offset `off` of port `p`. -/
def encodeAuxWrite (p : Port) (off : Byte) (v : Word) : CodeWord :=
  .access (descriptorOf 1 true (portField p) 0 0 off) (valueOperand (v.setWidth 64))

/-- The words of a well-formed instruction (R81, R105). -/
def encode : Instr → CodeWord
  | .invalidAuxport d => .access d .zero
  | .invalidHostport d => .access d .zero
  | .grStatus w => encodeGmbusRead 0x08 w
  | .grData w => encodeGmbusRead 0x0C w
  | .grPass off w => encodeGmbusRead off w
  | .gwControl w v => encodeGmbusWrite 0x00 w v
  | .gwCommand w v => encodeGmbusWrite 0x04 w v
  | .gwStatus w v => encodeGmbusWrite 0x08 w v
  | .gwData w v => encodeGmbusWrite 0x0C w v
  | .gwPass off w v => encodeGmbusWrite off w v
  | .awCtl p v => encodeAuxWrite p 0x10 v
  | .awData1 p v => encodeAuxWrite p 0x14 v
  | .awData2 p v => encodeAuxWrite p 0x18 v
  | .awData3 p v => encodeAuxWrite p 0x1C v
  | .awData4 p v => encodeAuxWrite p 0x20 v
  | .awData5 p v => encodeAuxWrite p 0x24 v
  | .awBadoff p off v => encodeAuxWrite p off v
  | .ar p off => .access (descriptorOf 1 false (portField p) 0 0 off) .zero
  | .hostInit p => .access (descriptorOf 2 false (portField p) 0 0 0) .zero
  | .hostConfig p mon dp edid => .access (descriptorOf 2 false (portField p) 0 1 0) ⟨0, mon, dp, edid⟩
  | .hostReset => .access (descriptorOf 2 false 0 0 2 0) .zero
  | .invalid d => .access d .zero
  | .cmdSwclrHeld v => .command (cmdKey true v)
  | .cmdSwclrDone v => .command (cmdKey true v)
  | .cmdNocycle v => .command (cmdKey false v)
  | .cmdStop v => .command (cmdKey false v)
  | .cmdNidxWait v => .command (cmdKey false v)
  | .cmdIdxWait v => .command (cmdKey false v)
  | .cmdNidxStop v => .command (cmdKey false v)
  | .cmdIdxStop v => .command (cmdKey false v)
  | .cmdRsvd2 v => .command (cmdKey false v)
  | .cmdRsvd6 v => .command (cmdKey false v)
  | .auxreqClear p v d1 => .auxRequest (auxKey v d1) p
  | .auxreqStop p v d1 => .auxRequest (auxKey v d1) p
  | .auxreqAddr0 p v d1 => .auxRequest (auxKey v d1) p
  | .auxreqStartEdid p v d1 => .auxRequest (auxKey v d1) p
  | .auxreqStartOther p v d1 => .auxRequest (auxKey v d1) p
  | .auxreqSeek p v d1 => .auxRequest (auxKey v d1) p
  | .auxreqWriteOther p v d1 => .auxRequest (auxKey v d1) p
  | .auxreqRead p v d1 => .auxRequest (auxKey v d1) p
  | .auxreqReadBadlen p v d1 => .auxRequest (auxKey v d1) p

/-! ### The table words -/

/-- The code word that a table word of `nbits` bits stands for, its operand words zero: up to 32 bits an access
descriptor, 33 to 40 bits a CMD key, 41 to 64 bits an AUXREQ key of port A. DESIGN CHOICE, safe: log 11. -/
def tableCodeWord (nbits w : Nat) : Except Reject CodeWord :=
  if nbits ≤ 32 then
    if w < 2 ^ 32 then .ok (.access (BitVec.ofNat 32 w) .zero) else .error .overWide
  else if nbits ≤ 40 then
    if w < 2 ^ 33 then .ok (.command (BitVec.ofNat 33 w)) else .error .overWide
  else if nbits ≤ 64 then
    if w < 2 ^ 64 then .ok (.auxRequest (BitVec.ofNat 64 w) .A) else .error .overWide
  else .error .noFormat

/-- The instruction the decoder reads from a table word. -/
def decodeTableWord (nbits w : Nat) : Option Instr :=
  match tableCodeWord nbits w with
  | .error _ => none
  | .ok c =>
    match decode c with
    | .error _ => none
    | .ok i => some i

end Sys2Proof
end

