-- ==== Sys2Proof/Machine/Flags.lean ====
section
/-! DEFINITION. The flags: every STATUS bit and every computation of a STATUS or AUXCTL flag the spec gives
(R25, R28, R41). Functions of the register word alone. -/

namespace Sys2Proof.Machine

/-! ### Reading (R25, R28) -/

/-- `ST.INUSE`. -/
def stInuse (v : Word) : Bool := bit v 15

/-- `ST.HW_WAIT_PHASE`. -/
def stHwWaitPhase (v : Word) : Bool := bit v 14

/-- `ST.STALL`. -/
def stStall (v : Word) : Bool := bit v 13

/-- `ST.INT`. -/
def stInt (v : Word) : Bool := bit v 12

/-- `ST.HW_RDY`. -/
def stHwRdy (v : Word) : Bool := bit v 11

/-- `ST.SATOER`, the ack-error bit. -/
def stSatoer (v : Word) : Bool := bit v 10

/-- `ST.ACTIVE`. -/
def stActive (v : Word) : Bool := bit v 9

/-- `ST.BYTES`. -/
def stBytes (v : Word) : BitVec 9 := v.extractLsb' 0 9

/-- `AUXCTL.SEND_BUSY`. -/
def auxctlSendBusy (v : Word) : Bool := bit v 31

/-- `AUXCTL.DONE`. -/
def auxctlDone (v : Word) : Bool := bit v 30

/-- `AUXCTL.SIZE`. -/
def auxctlSize (v : Word) : BitVec 5 := v.extractLsb' 20 5

/-! ### Writing -/

/-- STATUS after a controller reset that admitted the selected port or did not: ACTIVE cleared, HW_RDY and
HW_WAIT_PHASE set, SATOER set exactly when nothing was admitted; the other bits kept (R143). -/
def statusAfterReset (admitted : Bool) (st : Word) : Word :=
  setBit (setBit (setBit (setBit st 9 false) 11 true) 14 true) 10 (!admitted)

/-- STATUS after a software-clear arm: INT cleared, HW_RDY set (R152). -/
def statusAfterArm (st : Word) : Word := setBit (setBit st 12 false) 11 true

/-- STATUS with INT cleared (R153). -/
def statusClearInt (st : Word) : Word := setBit st 12 false

/-- STATUS with ACTIVE set or cleared (R158, R159). -/
def statusSetActive (x : Bool) (st : Word) : Word := setBit st 9 x

/-- STATUS after a guest read: in-use set (R170). -/
def statusAfterRead (st : Word) : Word := if stInuse st then st else setBit st 15 true

/-- STATUS after a guest write of `v`: in-use cleared when `v[15]` is 1, nothing else (R86, R172). -/
def statusAfterWrite (v st : Word) : Word := if stInuse v then setBit st 15 false else st

end Sys2Proof.Machine
end

