-- ==== Sys2Proof/Machine/State.lean ====
section
/-! DEFINITION. The state of the block, its reset, and the reasons a run can stop. Plain data throughout. -/

namespace Sys2Proof.Machine

open Sys2Proof.Config

/-- The GMBUS register window: six 32-bit registers shared by all ports (R20, R21). Its 24 addressable bytes are
these registers, little-endian (R60, R64). -/
structure GmbusRegs where
  control : Word
  command : Word
  status  : Word
  data    : Word
  intmask : Word
  index   : Word
  deriving DecidableEq, Repr

/-- The AUX block of one port: six 32-bit registers (R28). -/
structure AuxBlock where
  auxctl : Word
  data1  : Word
  data2  : Word
  data3  : Word
  data4  : Word
  data5  : Word
  deriving DecidableEq, Repr

/-- One entry of the Display Path Table (R29). -/
structure PathConfig where
  configured    : Bool
  hasMonitor    : Bool
  isDisplayport : Bool
  edid          : Option (List Byte)
  deriving DecidableEq, Repr

/-- Which transport last claimed a port (R30). -/
inductive Mode where
  | notSpecified | gmbus | auxChannel
  deriving DecidableEq, Repr

/-- The GMBUS phase of a port (R31). -/
inductive Phase where
  | idle | data | wait
  deriving DecidableEq, Repr

/-- `T[p].gmbus` (R31). -/
structure GmbusTransport where
  phase          : Phase
  cycleType      : BitVec 3
  totalByteCount : BitVec 16
  deriving DecidableEq, Repr

/-- `T[p].aux` (R32). -/
structure AuxTransport where
  i2cOverAuxActive    : Bool
  middleOfTransaction : Bool
  deriving DecidableEq, Repr

/-- `T[p]`, the transport state of a port (R30). -/
structure Transport where
  mode          : Mode
  slaveSelected : Bool
  edidAvailable : Bool
  readCursor    : Nat
  gmbus         : GmbusTransport
  aux           : AuxTransport
  deriving DecidableEq, Repr

/-- The kinds of protocol violation (R253). -/
inductive Violation where
  | notSelected
  | unavailable
  | noMonitor
  | outOfRange
  | dataReadNotReadDirection
  | reservedCycle (c : BitVec 3)
  | auxNoDevice
  | auxBadReadLength (len : BitVec 5)
  deriving DecidableEq, Repr

/-- The events a step can log (R256). -/
inductive Event where
  | unresolvedPort (sel : BitVec 3)
  | unsupportedSlave (a : BitVec 7)
  | noActivePort
  | protocolViolation (kind : Violation)
  | dataWriteRejected
  | unsupportedAuxAddress (addr : BitVec 16)
  | auxSeekTooShort
  deriving DecidableEq, Repr

/-- The reasons of a `Refused` outcome (R258). -/
inductive RefusedReason where
  | outsideWindow | specialWidth | badDescriptor | badConfig
  deriving DecidableEq, Repr

/-- The outcome of a step (R250). None of them halts the block (R271), so each is part of a next state. -/
inductive StepOutcome where
  | ok
  | malformedAccess
  | refused (why : RefusedReason)
  | rejectedDataWrite
  | faultAuxBadOffset
  deriving DecidableEq, Repr

/-- What a step returns to its caller beside the new state: its outcome, the value of a read, and the ordered
events (R12, R37, R250). A read value is held zero-extended to 64 bits: log 6. -/
structure Response where
  outcome : StepOutcome
  value   : Option (BitVec 64)
  events  : List Event
  deriving DecidableEq, Repr

/-- The state of the machine. `params` and `pending` are the model's own fields: log 1, log 3. -/
structure State where
  params    : Params
  gmbus     : GmbusRegs
  aux       : PortMap AuxBlock
  cfg       : PortMap PathConfig
  edidLen   : PortMap Nat
  transport : PortMap Transport
  response  : Response
  pending   : List Request
  deriving DecidableEq, Repr

/-- Why a step stops. -/
inductive Fault where
  /-- Raised by `step` when no call is pending: a step is one call of an entry point (R12), and there is none.
  Safe: the run ends where the stream ends. No instruction raises it. Log 4. -/
  | streamEnded
  deriving DecidableEq, Repr

/-- Why an instruction has no meaning. -/
inductive Refusal where
  /-- Raised by an arm of `exec` whose instruction has no meaning yet, under its mnemonic. Safe. No arm raises it:
  every instruction has its meaning. -/
  | notModelled (mnemonic : String)
  deriving DecidableEq, Repr

/-- The zero form of a transport state (R232). -/
def Transport.zero : Transport where
  mode          := .notSpecified
  slaveSelected := false
  edidAvailable := false
  readCursor    := 0
  gmbus         := ⟨.idle, 0, 0⟩
  aux           := ⟨false, false⟩

/-- An entry of the Display Path Table that the host never configured (R29, R127). -/
def PathConfig.unconfigured : PathConfig := ⟨false, false, false, none⟩

/-- A GMBUS window whose registers all hold `v` (R44). -/
def GmbusRegs.filled (v : Word) : GmbusRegs := ⟨v, v, v, v, v, v⟩

/-- An AUX block whose registers all hold `v` (R44). -/
def AuxBlock.filled (v : Word) : AuxBlock := ⟨v, v, v, v, v, v⟩

/-- The response at the start of a step: nothing returned, nothing logged (R280). -/
def Response.empty : Response := ⟨.ok, none, []⟩

/-- The state after `controller_reset` with no port ever configured and no call pending (R280), for given
parameters. -/
def State.resetWith (params : Params) : State where
  params    := params
  gmbus     := .filled params.regReset
  aux       := .fill (.filled params.regReset)
  cfg       := .fill .unconfigured
  edidLen   := .fill defaultEdidLen
  transport := .fill .zero
  response  := .empty
  pending   := []

/-- The machine right after reset (R280), with the parameters' defaults (R8). GEN has no default: Legacy is a DESIGN
CHOICE, unsafe: log 2. -/
def State.reset : State := State.resetWith (.defaults .legacy)

end Sys2Proof.Machine
end

