-- ==== Sys2Proof/Machine/Operands.lean ====
section
/-! DEFINITION. Operand forms: the admission of a GMBUS access, the byte view of the register bank, the registers of
an AUX block and its payload. -/

namespace Sys2Proof.Machine

/-! ### Admission of a GMBUS access (R67 to R69) -/

/-- The direction of a GMBUS access. -/
inductive Direction where
  | read | write
  deriving DecidableEq, Repr

/-- A width of 1, 2, 4 or 8 (R67). -/
def legalWidth (w : Nat) : Bool := w == 1 || w == 2 || w == 4 || w == 8

/-- The width is illegal or the offset is not a multiple of it (R67). -/
def malformed (off w : Nat) : Bool := !(legalWidth w && off % w == 0)

/-- The access lies wholly within the 24 bytes of the bank (R60, R68). -/
def insideWindow (off w : Nat) : Bool :=
  decide (off + w ≤ 0x14) || (decide (0x20 ≤ off) && decide (off + w ≤ 0x24))

/-- The read column of the table of R69, for an access already well formed and inside the window. -/
def readAdmitted (off w : Nat) : Bool :=
  if off < 0x08 then true
  else if off = 0x08 ∨ off = 0x0C then decide (w ≤ 4)
  else decide (0x10 ≤ off)

/-- The write column of the table of R69, for an access already well formed and inside the window. -/
def writeAdmitted (off w : Nat) : Bool :=
  if off = 0x00 ∨ off = 0x04 ∨ off = 0x08 then w == 4
  else if off = 0x0C then decide (w ≤ 4)
  else decide (0x10 ≤ off)

/-- The table of R69. -/
def admittedWidth : Direction → Nat → Nat → Bool
  | .read => readAdmitted
  | .write => writeAdmitted

/-- The outcome of a GMBUS access that is turned away, the first failing check of R259; none if it is admitted. -/
def admission (dir : Direction) (off w : Nat) : Option StepOutcome :=
  if malformed off w then some .malformedAccess
  else if !insideWindow off w then some (.refused .outsideWindow)
  else if !admittedWidth dir off w then some (.refused .specialWidth)
  else none

/-! ### The byte view of the bank (R60, R64) -/

/-- The registers of the GMBUS window (R21). -/
inductive BankReg where
  | control | command | status | data | intmask | index
  deriving DecidableEq, Repr

/-- The window offset of a register (R21, R63). -/
def BankReg.offset : BankReg → Nat
  | .control => 0x00
  | .command => 0x04
  | .status => 0x08
  | .data => 0x0C
  | .intmask => 0x10
  | .index => 0x20

/-- The register that holds the byte at a window offset; none outside the 24 bytes (R21, R60). -/
def bankRegAt (off : Nat) : Option BankReg :=
  match off / 4 with
  | 0 => some .control
  | 1 => some .command
  | 2 => some .status
  | 3 => some .data
  | 4 => some .intmask
  | 8 => some .index
  | _ => none

/-- `reg[R]` (R11). -/
def GmbusRegs.get (g : GmbusRegs) : BankReg → Word
  | .control => g.control
  | .command => g.command
  | .status => g.status
  | .data => g.data
  | .intmask => g.intmask
  | .index => g.index

/-- `reg[R] <- v` (R11). -/
def GmbusRegs.set (g : GmbusRegs) (r : BankReg) (v : Word) : GmbusRegs :=
  match r with
  | .control => { g with control := v }
  | .command => { g with command := v }
  | .status => { g with status := v }
  | .data => { g with data := v }
  | .intmask => { g with intmask := v }
  | .index => { g with index := v }

/-- The byte at a window offset, none where the bank has no byte (R60). -/
def bankByte (g : GmbusRegs) (off : Nat) : Option Byte :=
  (bankRegAt off).map fun r => byteOf (g.get r) (off % 4)

/-- The bank with the byte at a window offset replaced; no byte, no change (R60). -/
def setBankByte (g : GmbusRegs) (off : Nat) (b : Byte) : GmbusRegs :=
  match bankRegAt off with
  | some r => g.set r (setByte (g.get r) (off % 4) b)
  | none => g

/-- `MemRead(off, n)`, little-endian, zero-extended to 64 bits (R60). Every caller has checked that the bytes are in
the bank, so the 0 that stands for a missing byte is never read: log 13. -/
def memRead (g : GmbusRegs) (off : Nat) : Nat → BitVec 64
  | 0 => 0
  | n + 1 => (memRead g (off + 1) n <<< 8) ||| ((bankByte g off).getD 0).setWidth 64

/-- `MemWrite(off, n, v)`: byte j of `v` goes to `off + j` (R60). -/
def memWrite (g : GmbusRegs) (off : Nat) : Nat → BitVec 64 → GmbusRegs
  | 0, _ => g
  | n + 1, v => memWrite (setBankByte g off (v.setWidth 8)) (off + 1) n (v >>> 8)

/-! ### AUX registers (R28, R190) and payload (R95) -/

/-- `aux[p][R]` (R11). -/
def AuxBlock.get (x : AuxBlock) : AuxReg → Word
  | .auxctl => x.auxctl
  | .data1 => x.data1
  | .data2 => x.data2
  | .data3 => x.data3
  | .data4 => x.data4
  | .data5 => x.data5

/-- `aux[p][R] <- v` (R11). -/
def AuxBlock.set (x : AuxBlock) (r : AuxReg) (v : Word) : AuxBlock :=
  match r with
  | .auxctl => { x with auxctl := v }
  | .data1 => { x with data1 := v }
  | .data2 => { x with data2 := v }
  | .data3 => { x with data3 := v }
  | .data4 => { x with data4 := v }
  | .data5 => { x with data5 := v }

/-- `m[4]`, the seek byte, DATA2 bits 31:24 (R95, R201). -/
def seekByte (x : AuxBlock) : Byte := auxPayloadByte x.data2 4

end Sys2Proof.Machine
end

