-- ==== Sys2Proof/Machine/Ops.lean ====
section
/-! DEFINITION. The shared operations: field updates of State, the response of a step, the port resolver, the
transport lifecycle, the EDID cursor, the replies of the AUX framer, and the fetch of the next call. Every meaning is
written over these. -/

namespace Sys2Proof.Machine

open Sys2Proof.Config

/-- The result type of a meaning. -/
abbrev Result := Host.Outcome State Fault Refusal

/-! ### Field updates -/

/-- `reg[CONTROL] <- v`. -/
def State.setControl (s : State) (v : Word) : State := { s with gmbus := { s.gmbus with control := v } }

/-- `reg[COMMAND] <- v`. -/
def State.setCommand (s : State) (v : Word) : State := { s with gmbus := { s.gmbus with command := v } }

/-- `reg[STATUS] <- v`. -/
def State.setStatus (s : State) (v : Word) : State := { s with gmbus := { s.gmbus with status := v } }

/-- `reg[DATA] <- v`. -/
def State.setData (s : State) (v : Word) : State := { s with gmbus := { s.gmbus with data := v } }

/-- The whole register bank replaced. -/
def State.setGmbus (s : State) (g : GmbusRegs) : State := { s with gmbus := g }

/-- `aux[p]` replaced. -/
def State.setAux (s : State) (p : Port) (x : AuxBlock) : State := { s with aux := s.aux.set p x }

/-- `aux[p][R] <- v`. -/
def State.setAuxReg (s : State) (p : Port) (r : AuxReg) (v : Word) : State :=
  s.setAux p ((s.aux.get p).set r v)

/-- `T[p]` replaced. -/
def State.setTransport (s : State) (p : Port) (t : Transport) : State :=
  { s with transport := s.transport.set p t }

/-- `cfg[p]` replaced. -/
def State.setCfg (s : State) (p : Port) (c : PathConfig) : State := { s with cfg := s.cfg.set p c }

/-- `EDID_LEN[p]` replaced. -/
def State.setEdidLen (s : State) (p : Port) (n : Nat) : State := { s with edidLen := s.edidLen.set p n }

/-- The response replaced. -/
def State.setResponse (s : State) (r : Response) : State := { s with response := r }

/-- The stream of pending calls replaced. -/
def State.setPending (s : State) (q : List Request) : State := { s with pending := q }

/-! ### The response of a step (R12, R37, R250) -/

/-- The start of a step: outcome Ok, no value, no event (R280). -/
def State.beginStep (s : State) : State := s.setResponse .empty

/-- `log(ev)` (R11, R37). -/
def State.log (s : State) (ev : Event) : State :=
  s.setResponse { s.response with events := s.response.events ++ [ev] }

/-- `return v`: a read of width `w` returns the low `8w` bits of `x` (R11, R66). -/
def State.returnValue (s : State) (w : Nat) (x : BitVec 64) : State :=
  s.setResponse { s.response with value := some (truncTo w x) }

/-- `raise <Outcome>`: the step ends with a non-Ok outcome and changes no other state (R11, R250, R261). This is the
whole of what an error does: the block has no trap entry, saves nothing and transfers no control. -/
def State.raise (s : State) (o : StepOutcome) : State := s.setResponse { s.response with outcome := o }

/-- The result of a step that began at `s` and ends with outcome `o` and no event. -/
def endWith (o : StepOutcome) (s : State) : Result := .next (s.beginStep.raise o)

/-- A GMBUS access: the admission checks first, then the rule's effect on the begun step (R82, R140, R259). -/
def gmbusAccess (dir : Direction) (off w : Nat) (effect : State → State) (s : State) : Result :=
  match admission dir off w with
  | some o => endWith o s
  | none => .next (effect s.beginStep)

/-! ### Port resolver and admission (R121, R129) -/

/-- `resolve(GEN, sel)`: the selector's entry in the table of the generation (R121). -/
def resolve (params : Params) (sel : BitVec 3) : Option Port :=
  match params.gen with
  | .legacy => params.pinTable.legacy.get sel.toFin
  | .bxt => params.pinTable.bxt.get sel.toFin
  | .cnp => params.pinTable.cnp.get sel.toFin

/-- The active GMBUS port (R33). -/
def State.activePort (s : State) : Option Port := resolve s.params (pinSelector s.gmbus.control)

/-- `gmbus_admit(p)`: a monitor that is not DisplayPort (R129). -/
def gmbusAdmit (s : State) (p : Port) : Bool := (s.cfg.get p).hasMonitor && !(s.cfg.get p).isDisplayport

/-- `aux_admit(p)`: a monitor that is DisplayPort (R129). -/
def auxAdmit (s : State) (p : Port) : Bool := (s.cfg.get p).hasMonitor && (s.cfg.get p).isDisplayport

/-! ### Transport lifecycle (R143, R232, R239) -/

/-- `T[p]` changed by `f`. -/
def State.updTransport (s : State) (p : Port) (f : Transport → Transport) : State :=
  s.setTransport p (f (s.transport.get p))

/-- `T[P]` of the active port changed by `f`, if there is an active port. -/
def State.updActive (s : State) (f : Transport → Transport) : State :=
  match s.activePort with
  | some p => s.updTransport p f
  | none => s

/-- `init_transport(p)`: the zero form (R232). -/
def State.initTransport (s : State) (p : Port) : State := s.setTransport p .zero

/-- `init_transport(q)` for every q in PORTS (R143, R239). -/
def State.initAll (s : State) : State := { s with transport := .fill .zero }

/-- `T[Q]` as `controller_reset_core` leaves the selected port (R143, R144). -/
def selectedTransport (admitted : Bool) : Transport :=
  { Transport.zero with mode := .gmbus, edidAvailable := admitted }

/-- `controller_reset_core(Q)` (R143). -/
def controllerResetCore (q : Option Port) (s : State) : State :=
  let z := s.initAll
  match q with
  | some p =>
    (z.setTransport p (selectedTransport (gmbusAdmit s p))).setStatus
      (statusAfterReset (gmbusAdmit s p) s.gmbus.status)
  | none => z.setStatus (statusAfterReset false s.gmbus.status)

/-- The effect of `controller_reset()`: every transport in zero form, every register at `REG_RESET`; the Display Path
Table and the EDID lengths kept (R45, R239). -/
def controllerReset (s : State) : State :=
  { s.initAll with
    gmbus := .filled s.params.regReset
    aux := .fill (.filled s.params.regReset) }

/-! ### The EDID cursor (R230, R231) -/

/-- The first precondition of `next_byte` that fails, in the order of R230. -/
def nextByteViolation (s : State) (p : Port) : Option Violation :=
  let t := s.transport.get p
  if t.mode = .notSpecified then some .notSelected
  else if !t.slaveSelected then some .notSelected
  else if !t.edidAvailable then some .unavailable
  else if !(s.cfg.get p).hasMonitor then some .noMonitor
  else if s.edidLen.get p ≤ t.readCursor then some .outOfRange
  else none

/-- `cfg[p].edid[i]`; where the table entry is ill formed and holds no such byte, a free value (log 9). -/
def edidByte (s : State) (p : Port) (i : Nat) : Byte :=
  match (s.cfg.get p).edid with
  | some bytes => bytes.getD i (absentEdidByte p i)
  | none => absentEdidByte p i

/-- `next_byte(p)`: the byte, and the state after it. A failed call logs, returns 0x00 and does not advance (R230). -/
def nextByte (p : Port) (s : State) : Byte × State :=
  match nextByteViolation s p with
  | some kind => (0x00, s.log (.protocolViolation kind))
  | none =>
    (edidByte s p (s.transport.get p).readCursor,
      s.updTransport p fun t => { t with readCursor := t.readCursor + 1 })

/-- `k` calls of `next_byte(p)`, their bytes in order (R165). -/
def pullBytes (p : Port) : Nat → State → List Byte × State
  | 0, s => ([], s)
  | k + 1, s =>
    let (b, s₁) := nextByte p s
    let (bs, s₂) := pullBytes p k s₁
    (b :: bs, s₂)

/-- DATA after a batched read: pulled byte j in bits `[8j+7:8j]`, a byte above them kept or zeroed by
`DATA_PARTIAL_UPPER` (R166). -/
def packData (upper : DataPartialUpper) (old : Word) (bs : List Byte) : Word :=
  packWord (slot 0) (slot 1) (slot 2) (slot 3)
where
  slot (j : Nat) : Byte :=
    bs.getD j (match upper with
      | .keep => byteOf old j
      | .zero => 0)

/-! ### The AUX reply (R196, R205) -/

/-- The reply message size: 1 for a Write-kind request; for a Read-kind one 2, or `AUX_BARE_READ_REPLY_SIZE` when the
request is bare (R196). -/
def replySize (params : Params) (isRead : Bool) (len : BitVec 5) : BitVec 5 :=
  if isRead then (if len = 3 then params.auxBareReadReplySize else 2) else 1

/-- The reply control that every triggered write leaves in AUXCTL before any branch (R196). -/
def auxReply (p : Port) (v d1 : Word) (s : State) : State :=
  s.setAuxReg p .auxctl (auxReplyControl (replySize s.params (auxIsRead d1) (auxLen v)))

/-- The reply payload: the ACK code and the byte `b` in DATA1 (R205). -/
def auxPayload (p : Port) (b : Byte) (s : State) : State :=
  s.setAuxReg p .data1 (auxReplyData s.params.auxAckCode b)

/-- A triggered request: the step begins, AUXCTL takes the reply control, and then the class acts (R193). -/
def auxTriggered (p : Port) (v d1 : Word) (effect : State → State) (s : State) : Result :=
  .next (effect (auxReply p v d1 s.beginStep))

/-! ### COMMAND decode (R150) -/

/-- The part of a decoded COMMAND write before its cycle type acts: the software-clear arm (R152), the slave address
(R155), the byte count, the index seed and the captured cycle type of the active port (R150, R157), or the event that
there is none (R162). -/
def commandFields (v : Word) (s : State) : State :=
  let w := cmdStrip v
  let a := cmdAddr w
  let s₁ := if cmdClr v then s.setStatus (statusAfterArm s.gmbus.status) else s
  let s₂ :=
    if a = s.params.edidAddr then s₁.updActive fun t => { t with slaveSelected := true }
    else if a ≠ 0 then s₁.log (.unsupportedSlave a)
    else s₁
  match s.activePort with
  | some p =>
    s₂.updTransport p fun t =>
      { t with
        gmbus := { t.gmbus with totalByteCount := cmdCount w, cycleType := cmdCycle w }
        readCursor := if cmdIndexed w then (cmdIndex w).toNat else t.readCursor }
  | none => s₂.log .noActivePort

/-- A decoded COMMAND write: the fields, then the effect of its cycle type, then the latch of the value (R150,
R161). -/
def commandWrite (v : Word) (cycleEffect : State → State) (s : State) : Result :=
  .next ((cycleEffect (commandFields v s.beginStep)).setCommand (cmdStrip v))

/-- A data cycle: the active port's phase becomes Data and ACTIVE is set (R159). -/
def dataCycle (s : State) : State :=
  let s₁ := s.updActive fun t => { t with gmbus := { t.gmbus with phase := .data } }
  s₁.setStatus (statusSetActive true s₁.gmbus.status)

/-- A Stop: gated by the CYCLE field of the COMMAND still latched; the active port is reinitialised and its phase made
Idle, and ACTIVE is cleared (R158). -/
def stopCycle (s : State) : State :=
  if cmdCycle s.gmbus.command ≠ 0 then
    let s₁ := s.updActive fun _ => { Transport.zero with gmbus := { Transport.zero.gmbus with phase := .idle } }
    s₁.setStatus (statusSetActive false s₁.gmbus.status)
  else s

/-- A reserved cycle: logged, no phase change (R160). -/
def reservedCycle (c : BitVec 3) (s : State) : State := s.log (.protocolViolation (.reservedCycle c))

/-! ### Fetch (R40) and the placing of a table word -/

/-- The operation of the next pending call, and the state with that call taken from the stream; none when the stream
has ended (R12, R40). -/
def fetch (s : State) : Option (Instr × State) :=
  match s.pending with
  | [] => none
  | r :: rest => some (route r, s.setPending rest)

/-- The state in which the very next step runs the operation of a code word: the call is put at the head of the
stream, and the latched bits that are part of a CMD or AUXREQ key are put where the decode reads them (R102, R105).
Log 11. -/
def placeCodeWord (c : CodeWord) (s : State) : State :=
  match c with
  | .access d ops => s.setPending (.descriptor d ops :: s.pending)
  | .command key =>
    (s.setCommand (setBit s.gmbus.command 31 (key.getLsbD 32))).setPending
      (.gmbusWrite 0x04 4 (key.setWidth 32 |>.setWidth 64) :: s.pending)
  | .auxRequest key p =>
    (s.setAuxReg p .data1 (key.setWidth 32)).setPending
      (.auxWrite p 0x10 (key.extractLsb' 32 32) :: s.pending)

/-- The state in which the next step runs a table word; a word of no format changes nothing. -/
def placeTableWord (s : State) (nbits w : Nat) : State :=
  match tableCodeWord nbits w with
  | .ok c => placeCodeWord c s
  | .error _ => s

end Sys2Proof.Machine
end

