-- ==== Sys2Proof/Machine/AuxRequest.lean ====
section
/-! DEFINITION. The nine classes of an AUXCTL write (R97, R193). A class is the AUXCTL write of `v` to port `p` while
the header word is `d1`; the caller takes `d1` from the latched DATA1 (log 10). -/

namespace Sys2Proof.Machine

/-- The two flags a bare START sets (R198, R200). -/
def startFlags (p : Port) (s : State) : State :=
  s.updTransport p fun t => { t with aux := ⟨true, true⟩ }

/-- A bare START to the EDID address: reinitialised first if GMBUS had claimed the port, then the flags, the mode, the
selection and the admission (R198). -/
def startEdid (p : Port) (s : State) : State :=
  let s₁ := if (s.transport.get p).mode = .gmbus then s.initTransport p else s
  (startFlags p s₁).updTransport p fun t =>
    { t with mode := .auxChannel, slaveSelected := true, edidAvailable := auxAdmit s p }

/-- An EDID write: the cursor takes the fifth payload byte, if the request has one (R201). -/
def seek (p : Port) (len : BitVec 5) (s : State) : State :=
  if 5 ≤ len.toNat then
    s.updTransport p fun t => { t with readCursor := (seekByte (s.aux.get p)).toNat }
  else s.log .auxSeekTooShort

/-- A read of one byte: from the cursor if the port is available and selected, otherwise the sentinel (R203). -/
def readByte (p : Port) (s : State) : Byte × State :=
  if (s.transport.get p).edidAvailable && (s.transport.get p).slaveSelected then nextByte p s
  else (s.params.auxNakByte, s.log (.protocolViolation .auxNoDevice))

/-- AUXREQ.CLEAR: a clear-status write changes nothing (R194). -/
def execAuxreqClear (_p : Port) (_v _d1 : Word) (s : State) : Result := .next s.beginStep

/-- AUXREQ.STOP (R197). -/
def execAuxreqStop (p : Port) (v d1 : Word) (s : State) : Result :=
  auxTriggered p v d1 (fun s => auxPayload p 0x00 (s.initTransport p)) s

/-- AUXREQ.ADDR0: the flags are set and then everything is reinitialised (R199). -/
def execAuxreqAddr0 (p : Port) (v d1 : Word) (s : State) : Result :=
  auxTriggered p v d1 (fun s => auxPayload p 0x00 ((startFlags p s).initTransport p)) s

/-- AUXREQ.START_EDID (R198). -/
def execAuxreqStartEdid (p : Port) (v d1 : Word) (s : State) : Result :=
  auxTriggered p v d1 (fun s => auxPayload p 0x00 (startEdid p s)) s

/-- AUXREQ.START_OTHER (R200). -/
def execAuxreqStartOther (p : Port) (v d1 : Word) (s : State) : Result :=
  auxTriggered p v d1
    (fun s => auxPayload p 0x00 ((startFlags p s).log (.unsupportedAuxAddress (auxAddr d1)))) s

/-- AUXREQ.SEEK (R201). -/
def execAuxreqSeek (p : Port) (v d1 : Word) (s : State) : Result :=
  auxTriggered p v d1 (fun s => auxPayload p 0x00 (seek p (auxLen v) s)) s

/-- AUXREQ.WRITE_OTHER (R202). -/
def execAuxreqWriteOther (p : Port) (v d1 : Word) (s : State) : Result :=
  auxTriggered p v d1 (fun s => auxPayload p 0x00 (s.log (.unsupportedAuxAddress (auxAddr d1)))) s

/-- AUXREQ.READ (R203). -/
def execAuxreqRead (p : Port) (v d1 : Word) (s : State) : Result :=
  auxTriggered p v d1 (fun s => let (b, s₁) := readByte p s; auxPayload p b s₁) s

/-- AUXREQ.READ_BADLEN: under `abort` DATA1 keeps the request; under `sentinel` it takes the NAK byte (R204). -/
def execAuxreqReadBadlen (p : Port) (v d1 : Word) (s : State) : Result :=
  auxTriggered p v d1
    (fun s =>
      let s₁ := s.log (.protocolViolation (.auxBadReadLength (auxLen v)))
      match s.params.auxBadlenPolicy with
      | .abort => s₁
      | .sentinel => auxPayload p s.params.auxNakByte s₁) s

/-- The class of an AUXCTL write of `v` to port `p` at `s`, the header address compared with `EDID_ADDR` (R97,
R193; log 8). -/
def execAuxClass (p : Port) (v : Word) (s : State) : Result :=
  let d1 := (s.aux.get p).data1
  let addr := auxAddr d1
  if !auxTrigger v then execAuxreqClear p v d1 s
  else if auxLen v = 3 then
    if !auxMot d1 then execAuxreqStop p v d1 s
    else if addr = 0 then execAuxreqAddr0 p v d1 s
    else if addr = s.params.auxEdidAddr then execAuxreqStartEdid p v d1 s
    else execAuxreqStartOther p v d1 s
  else if !auxIsRead d1 then
    if addr = s.params.auxEdidAddr then execAuxreqSeek p v d1 s else execAuxreqWriteOther p v d1 s
  else if auxLen v = 4 then execAuxreqRead p v d1 s
  else execAuxreqReadBadlen p v d1 s

end Sys2Proof.Machine
end

