-- ==== Sys2Proof/Machine/AuxAccess.lean ====
section
/-! DEFINITION. The AUX accesses: the AUXCTL write, the DATA-word writes, an unmapped offset, and the read. -/

namespace Sys2Proof.Machine

/-- A DATA-word write is a plain store (R192). -/
def auxStore (p : Port) (r : AuxReg) (v : Word) (s : State) : Result := .next (s.beginStep.setAuxReg p r v)

/-- AW.CTL: runs the class that the value and the latched DATA1 select (R193). -/
def execAwCtl (p : Port) (v : Word) (s : State) : Result := execAuxClass p v s

/-- AW.DATA1 (R192). -/
def execAwData1 (p : Port) (v : Word) (s : State) : Result := auxStore p .data1 v s

/-- AW.DATA2 (R192). -/
def execAwData2 (p : Port) (v : Word) (s : State) : Result := auxStore p .data2 v s

/-- AW.DATA3 (R192). -/
def execAwData3 (p : Port) (v : Word) (s : State) : Result := auxStore p .data3 v s

/-- AW.DATA4 (R192). -/
def execAwData4 (p : Port) (v : Word) (s : State) : Result := auxStore p .data4 v s

/-- AW.DATA5 (R192). -/
def execAwData5 (p : Port) (v : Word) (s : State) : Result := auxStore p .data5 v s

/-- AW.BADOFF: the caller's bug, nothing changes (R191, R257). -/
def execAwBadoff (_p : Port) (_off : Byte) (_v : Word) (s : State) : Result := endWith .faultAuxBadOffset s

/-- AR: the latched register, or the fault outcome for an unmapped offset (R191, R206). -/
def execAr (p : Port) (off : Byte) (s : State) : Result :=
  match auxRegister off with
  | some r => .next (s.beginStep.returnValue 4 (((s.aux.get p).get r).setWidth 64))
  | none => endWith .faultAuxBadOffset s

end Sys2Proof.Machine
end

