-- ==== Sys2Proof/Machine/Command.lean ====
section
/-! DEFINITION. The ten forms of a COMMAND write (R99, R150). A form is the COMMAND write of the value `v` on the path
its CMD row names; the row's OLDCLR bit is the latched bit 31, which the caller has tested (log 10). -/

namespace Sys2Proof.Machine

/-- CMD.SWCLR_HELD: nothing changes (R151). -/
def execCmdSwclrHeld (_v : Word) (s : State) : Result := .next s.beginStep

/-- CMD.SWCLR_DONE: bit 31 of the latched COMMAND is cleared, the controller reset runs for the active port, INT is
cleared; the written value is not latched (R153). -/
def execCmdSwclrDone (_v : Word) (s : State) : Result :=
  let s₁ := s.beginStep.setCommand (setBit s.gmbus.command 31 false)
  let s₂ := controllerResetCore s.activePort s₁
  .next (s₂.setStatus (statusClearInt s₂.gmbus.status))

/-- CMD.NOCYCLE: no transition (R156). -/
def execCmdNocycle (v : Word) (s : State) : Result := commandWrite v (fun s => s) s

/-- CMD.STOP (R158). -/
def execCmdStop (v : Word) (s : State) : Result := commandWrite v stopCycle s

/-- CMD.NIDX_WAIT, NonIndexedWrite (R159). -/
def execCmdNidxWait (v : Word) (s : State) : Result := commandWrite v dataCycle s

/-- CMD.IDX_WAIT, IndexedWrite (R159). -/
def execCmdIdxWait (v : Word) (s : State) : Result := commandWrite v dataCycle s

/-- CMD.NIDX_STOP, NonIndexedStop (R159). -/
def execCmdNidxStop (v : Word) (s : State) : Result := commandWrite v dataCycle s

/-- CMD.IDX_STOP, IndexedStop (R159). -/
def execCmdIdxStop (v : Word) (s : State) : Result := commandWrite v dataCycle s

/-- CMD.RSVD2 (R160). -/
def execCmdRsvd2 (v : Word) (s : State) : Result := commandWrite v (reservedCycle 2) s

/-- CMD.RSVD6 (R160). -/
def execCmdRsvd6 (v : Word) (s : State) : Result := commandWrite v (reservedCycle 6) s

/-- The form of a COMMAND write of `v` at `s`: the software-clear path by the latched bit 31, otherwise by the CYCLE
field of the decoded value (R91, R99, R150). -/
def execCommandForm (v : Word) (s : State) : Result :=
  if cmdClr s.gmbus.command then
    if cmdClr v then execCmdSwclrHeld v s else execCmdSwclrDone v s
  else
    match (cmdCycle (cmdStrip v)).toNat with
    | 0 => execCmdNocycle v s
    | 1 => execCmdNidxWait v s
    | 2 => execCmdRsvd2 v s
    | 3 => execCmdIdxWait v s
    | 4 => execCmdStop v s
    | 5 => execCmdNidxStop v s
    | 6 => execCmdRsvd6 v s
    | _ => execCmdIdxStop v s

end Sys2Proof.Machine
end

