-- ==== Sys2Proof/Machine/GmbusRead.lean ====
section
/-! DEFINITION. The GMBUS reads: STATUS, DATA and passthrough. -/

namespace Sys2Proof.Machine

open Sys2Proof.Config

/-- The latched DATA value, truncated to the width: the stale-value return (R163, R164, R168). -/
def returnData (w : Nat) (s : State) : State := s.returnValue w (s.gmbus.data.setWidth 64)

/-- `bytes_remaining`: the active port's count less its cursor, as a signed integer (R9, R164). -/
def bytesRemaining (t : Transport) : Int := (t.gmbus.totalByteCount.toNat : Int) - (t.readCursor : Int)

/-- The phase a terminal DATA read selects: Idle for the Stop-flavoured codes, Wait otherwise (R167). -/
def terminalPhase (cycle : BitVec 3) : Phase := if cycle = 5 ∨ cycle = 7 then .idle else .wait

/-- The terminal transition: the phase assignment, then the reinitialisation that overwrites it (R167, C9). -/
def terminate (p : Port) (s : State) : State :=
  (s.updTransport p fun t =>
    { t with gmbus := { t.gmbus with phase := terminalPhase t.gmbus.cycleType } }).initTransport p

/-- The batched read of the active port `p` with `rem` bytes remaining, `rem > 0` (R165 to R167). -/
def batchedRead (p : Port) (rem : Int) (w : Nat) (s : State) : State :=
  let (bs, s₁) := pullBytes p (min rem 4).toNat s
  let s₂ := returnData w (s₁.setData (packData s.params.dataPartialUpper s₁.gmbus.data bs))
  if rem ≤ 4 then terminate p s₂ else s₂

/-- The DATA read of a begun step (R163). -/
def dataRead (w : Nat) (s : State) : State :=
  if !cmdDir s.gmbus.command then
    returnData w (s.log (.protocolViolation .dataReadNotReadDirection))
  else
    match s.activePort with
    | none => returnData w (s.log .noActivePort)
    | some p =>
      let rem := bytesRemaining (s.transport.get p)
      if rem ≤ 0 then returnData w s else batchedRead p rem w s

/-- The STATUS read of a begun step: in-use is set, and the value before or after is returned (R170, R171). -/
def statusRead (w : Nat) (s : State) : State :=
  let old := s.gmbus.status
  let new := statusAfterRead old
  let r := match s.params.inuseReadReturns with
    | .old => old
    | .new => new
  (s.setStatus new).returnValue w (r.setWidth 64)

/-- GR.STATUS (R170). -/
def execGrStatus (w : Nat) (s : State) : Result := gmbusAccess .read 0x08 w (statusRead w) s

/-- GR.DATA (R163). -/
def execGrData (w : Nat) (s : State) : Result := gmbusAccess .read 0x0C w (dataRead w) s

/-- GR.PASS (R147). -/
def execGrPass (off w : Nat) (s : State) : Result :=
  gmbusAccess .read off w (fun s => s.returnValue w (memRead s.gmbus off w)) s

end Sys2Proof.Machine
end

