-- ==== Sys2Proof/Machine/GmbusWrite.lean ====
section
/-! DEFINITION. The GMBUS writes: CONTROL, COMMAND, STATUS, DATA and passthrough. -/

namespace Sys2Proof.Machine

/-- The CONTROL write of a begun step (R141, R142). -/
def controlWrite (v : Word) (s : State) : State :=
  match resolve s.params (pinSelector v) with
  | none =>
    let s₁ := s.log (.unresolvedPort (pinSelector v))
    if s.params.controlLatchUnresolved then s₁.setControl v else s₁
  | some q => controllerResetCore (some q) (s.setControl v)

/-- GW.CONTROL (R141). -/
def execGwControl (w : Nat) (v : BitVec 64) (s : State) : Result :=
  gmbusAccess .write 0x00 w (controlWrite (v.setWidth 32)) s

/-- GW.COMMAND: an admitted write runs the form that the latched bit 31 and the value select (R150). -/
def execGwCommand (w : Nat) (v : BitVec 64) (s : State) : Result :=
  match admission .write 0x04 w with
  | some o => endWith o s
  | none => execCommandForm (v.setWidth 32) s

/-- GW.STATUS (R172). -/
def execGwStatus (w : Nat) (v : BitVec 64) (s : State) : Result :=
  gmbusAccess .write 0x08 w (fun s => s.setStatus (statusAfterWrite (v.setWidth 32) s.gmbus.status)) s

/-- GW.DATA: rejected, with its event (R169, R255). -/
def execGwData (w : Nat) (_v : BitVec 64) (s : State) : Result :=
  gmbusAccess .write 0x0C w (fun s => (s.log .dataWriteRejected).raise .rejectedDataWrite) s

/-- GW.PASS (R148). -/
def execGwPass (off w : Nat) (v : BitVec 64) (s : State) : Result :=
  gmbusAccess .write off w (fun s => s.setGmbus (memWrite s.gmbus off w v)) s

end Sys2Proof.Machine
end

