-- ==== Sys2Proof/Machine/HostCalls.lean ====
section
/-! DEFINITION. The host operations and the descriptors that spell no operation. -/

namespace Sys2Proof.Machine

/-- The `configure` arguments of R238 that are refused: an EDID of a length other than 128 or 256, or a monitor with
no EDID. -/
def badConfig (mon : Bool) (edid : Option (List Byte)) : Bool :=
  match edid with
  | some bytes => bytes.length != 128 && bytes.length != 256
  | none => mon

/-- `EDID_LEN[p]` of a configured buffer (R238). -/
def configuredLen (edid : Option (List Byte)) : Nat :=
  match edid with
  | some bytes => bytes.length
  | none => Config.defaultEdidLen

/-- HOST.INIT (R240). -/
def execHostInit (p : Port) (s : State) : Result := .next (s.beginStep.initTransport p)

/-- HOST.CONFIG (R238). -/
def execHostConfig (p : Port) (mon dp : Bool) (edid : Option (List Byte)) (s : State) : Result :=
  if badConfig mon edid then endWith (.refused .badConfig) s
  else
    .next (((s.beginStep.setCfg p ⟨true, mon, dp, edid⟩).setEdidLen p (configuredLen edid)).initTransport p)

/-- HOST.RESET (R239). -/
def execHostReset (s : State) : Result := .next (controllerReset s.beginStep)

/-- INVALID.AUXPORT: no operation (R81, R258). -/
def execInvalidAuxport (_d : Word) (s : State) : Result := endWith (.refused .badDescriptor) s

/-- INVALID.HOSTPORT: no operation (R81, R258). -/
def execInvalidHostport (_d : Word) (s : State) : Result := endWith (.refused .badDescriptor) s

/-- INVALID: no operation (R81, R258). -/
def execInvalid (_d : Word) (s : State) : Result := endWith (.refused .badDescriptor) s

end Sys2Proof.Machine
end

