-- ==== Sys2Proof/Machine/Dispatch.lean ====
section
/-! DEFINITION. The meaning of each instruction, one arm for each constructor. -/

namespace Sys2Proof.Machine

def exec (i : Instr) (s : State) : Host.Outcome State Fault Refusal :=
  match i with
  | .invalidAuxport d => Sys2Proof.Machine.execInvalidAuxport d s
  | .invalidHostport d => Sys2Proof.Machine.execInvalidHostport d s
  | .grStatus w => Sys2Proof.Machine.execGrStatus w s
  | .grData w => Sys2Proof.Machine.execGrData w s
  | .grPass off w => Sys2Proof.Machine.execGrPass off w s
  | .gwControl w v => Sys2Proof.Machine.execGwControl w v s
  | .gwCommand w v => Sys2Proof.Machine.execGwCommand w v s
  | .gwStatus w v => Sys2Proof.Machine.execGwStatus w v s
  | .gwData w v => Sys2Proof.Machine.execGwData w v s
  | .gwPass off w v => Sys2Proof.Machine.execGwPass off w v s
  | .awCtl p v => Sys2Proof.Machine.execAwCtl p v s
  | .awData1 p v => Sys2Proof.Machine.execAwData1 p v s
  | .awData2 p v => Sys2Proof.Machine.execAwData2 p v s
  | .awData3 p v => Sys2Proof.Machine.execAwData3 p v s
  | .awData4 p v => Sys2Proof.Machine.execAwData4 p v s
  | .awData5 p v => Sys2Proof.Machine.execAwData5 p v s
  | .awBadoff p off v => Sys2Proof.Machine.execAwBadoff p off v s
  | .ar p off => Sys2Proof.Machine.execAr p off s
  | .hostInit p => Sys2Proof.Machine.execHostInit p s
  | .hostConfig p mon dp edid => Sys2Proof.Machine.execHostConfig p mon dp edid s
  | .hostReset => Sys2Proof.Machine.execHostReset s
  | .invalid d => Sys2Proof.Machine.execInvalid d s
  | .cmdSwclrHeld v => Sys2Proof.Machine.execCmdSwclrHeld v s
  | .cmdSwclrDone v => Sys2Proof.Machine.execCmdSwclrDone v s
  | .cmdNocycle v => Sys2Proof.Machine.execCmdNocycle v s
  | .cmdStop v => Sys2Proof.Machine.execCmdStop v s
  | .cmdNidxWait v => Sys2Proof.Machine.execCmdNidxWait v s
  | .cmdIdxWait v => Sys2Proof.Machine.execCmdIdxWait v s
  | .cmdNidxStop v => Sys2Proof.Machine.execCmdNidxStop v s
  | .cmdIdxStop v => Sys2Proof.Machine.execCmdIdxStop v s
  | .cmdRsvd2 v => Sys2Proof.Machine.execCmdRsvd2 v s
  | .cmdRsvd6 v => Sys2Proof.Machine.execCmdRsvd6 v s
  | .auxreqClear p v d1 => Sys2Proof.Machine.execAuxreqClear p v d1 s
  | .auxreqStop p v d1 => Sys2Proof.Machine.execAuxreqStop p v d1 s
  | .auxreqAddr0 p v d1 => Sys2Proof.Machine.execAuxreqAddr0 p v d1 s
  | .auxreqStartEdid p v d1 => Sys2Proof.Machine.execAuxreqStartEdid p v d1 s
  | .auxreqStartOther p v d1 => Sys2Proof.Machine.execAuxreqStartOther p v d1 s
  | .auxreqSeek p v d1 => Sys2Proof.Machine.execAuxreqSeek p v d1 s
  | .auxreqWriteOther p v d1 => Sys2Proof.Machine.execAuxreqWriteOther p v d1 s
  | .auxreqRead p v d1 => Sys2Proof.Machine.execAuxreqRead p v d1 s
  | .auxreqReadBadlen p v d1 => Sys2Proof.Machine.execAuxreqReadBadlen p v d1 s

end Sys2Proof.Machine
end

