-- ==== Sys2Proof/Machine/Step.lean ====
section
/-! DEFINITION. One step: the next pending call, decoded and run. -/

namespace Sys2Proof.Machine

/-- One step is one call of an entry point (R12): the head of the stream is taken, and the operation it routes to is
run. With no call pending there is no step: log 4. -/
def step (s : State) : Host.Outcome State Fault Refusal :=
  match fetch s with
  | none => .fault .streamEnded
  | some (i, s₁) => exec i s₁

/-- `s` with a table word placed so that the very next step runs it: log 11. -/
def State.withFetchWord (s : State) (nbits w : Nat) : State := placeTableWord s nbits w

end Sys2Proof.Machine
end

