-- ==== Sys2Proof/Machine/Pseudo.lean ====
section
/-! DEFINITION. The pseudo-instructions of R104: each is a name for a list of calls. The access syntax of R103 is
`Request` itself: `gr.W`, `gw.W`, `aw`, `ar`, `host.init`, `host.config` and `host.reset` are its constructors. -/

namespace Sys2Proof.Machine

/-- The COMMAND word of `gmbus.cmd CYC, CNT, IDX, ADDR, DIR`: SW_RDY set, the fields at the places of R85 (R104). -/
def gmbusCmdWord (cyc : BitVec 3) (cnt : BitVec 9) (idx : BitVec 8) (addr : BitVec 7) (dir : Bool) : Word :=
  0x40000000#32 ||| (cyc.setWidth 32 <<< 25) ||| (cnt.setWidth 32 <<< 16) ||| (idx.setWidth 32 <<< 8) |||
    (addr.setWidth 32 <<< 1) ||| (BitVec.ofBool dir).setWidth 32

/-- The DATA1 word of `aux.bare P, OP, ADDR` (R104). -/
def auxHeaderWord (op : BitVec 4) (addr : BitVec 16) : Word :=
  (op.setWidth 32 <<< 28) ||| (addr.setWidth 32 <<< 8)

/-- `gw.4` of a 32-bit value. -/
def gw4 (off : Nat) (v : Word) : Request := .gmbusWrite off 4 (v.setWidth 64)

/-- `gmbus.select PIN` (R104). -/
def pseudoGmbusSelect (pin : Word) : List Request := [gw4 0x00 pin]

/-- `gmbus.cmd CYC, CNT, IDX, ADDR, DIR` (R104). -/
def pseudoGmbusCmd (cyc : BitVec 3) (cnt : BitVec 9) (idx : BitVec 8) (addr : BitVec 7) (dir : Bool) : List Request :=
  [gw4 0x04 (gmbusCmdWord cyc cnt idx addr dir)]

/-- `gmbus.stop` (R104). -/
def pseudoGmbusStop : List Request := [gw4 0x04 0x48000000]

/-- `gmbus.swclear`: the arm and the completion (R104). -/
def pseudoGmbusSwclear : List Request := [gw4 0x04 0x80000000, gw4 0x04 0x00000000]

/-- `gmbus.release` (R104). -/
def pseudoGmbusRelease : List Request := [gw4 0x08 0x00008000]

/-- `aux.bare P, OP, ADDR` (R104). -/
def pseudoAuxBare (p : Port) (op : BitVec 4) (addr : BitVec 16) : List Request :=
  [.auxWrite p 0x14 (auxHeaderWord op addr), .auxWrite p 0x10 0x80300000]

/-- `aux.start_w P` (R104). -/
def pseudoAuxStartW (p : Port) : List Request := pseudoAuxBare p 0x4 0x0050

/-- `aux.start_r P` (R104). -/
def pseudoAuxStartR (p : Port) : List Request := pseudoAuxBare p 0x5 0x0050

/-- `aux.stop P` (R104). -/
def pseudoAuxStop (p : Port) : List Request := pseudoAuxBare p 0x1 0x0050

/-- `aux.seek P, OFF` (R104). -/
def pseudoAuxSeek (p : Port) (off : Byte) : List Request :=
  [.auxWrite p 0x14 0x40005000, .auxWrite p 0x18 (off.setWidth 32 <<< 24), .auxWrite p 0x10 0x80500000]

/-- `aux.readb P` (R104). -/
def pseudoAuxReadb (p : Port) : List Request :=
  [.auxWrite p 0x14 0x50005000, .auxWrite p 0x10 0x80400000, .auxRead p 0x14]

end Sys2Proof.Machine
end

