-- ==== Sys2Proof/Safety.lean ====
section
/-! DEFINITION. The terms claims are made in: what a well-formed table entry and a legal transport state are, the
invariant of the machine, and what it means that a step changes nothing. -/

namespace Sys2Proof.Machine

open Sys2Proof.Config

/-- A well-formed entry of the Display Path Table and its EDID length (R29, R128, R238): the length is 128 or 256, an
EDID that is present has it, a monitor has an EDID, and an entry never configured has nothing. -/
def cfgOk (c : PathConfig) (len : Nat) : Prop :=
  (len = 128 ∨ len = 256) ∧
  (∀ bytes, c.edid = some bytes → bytes.length = len) ∧
  (c.hasMonitor = true → c.edid ≠ none) ∧
  (c.configured = false → c = PathConfig.unconfigured)

/-- A legal transport state beside its table entry (R9, R31, R35, R129, R235, C9): the cursor and the count are in
their ranges, no step leaves the phase at Wait, and the port is available only as the transport that claimed it admits
the entry. -/
def transportOk (t : Transport) (c : PathConfig) : Prop :=
  t.readCursor ≤ 256 ∧
  t.gmbus.totalByteCount.toNat ≤ 511 ∧
  t.gmbus.phase ≠ .wait ∧
  (t.edidAvailable = true →
    (t.mode = .gmbus ∧ c.hasMonitor = true ∧ c.isDisplayport = false) ∨
    (t.mode = .auxChannel ∧ c.hasMonitor = true ∧ c.isDisplayport = true))

/-- The STATUS bits no rule writes but the register reset: BYTES, STALL and bits 31:16 (R25). -/
def statusBitIsHeld (i : Nat) : Bool := decide (i ≤ 8) || i == 13 || (decide (16 ≤ i) && decide (i < 32))

/-- The invariant: every entry and transport is legal, at most one port is claimed by GMBUS, the STATUS bits nothing
writes hold their reset value, INT is set only if the reset value sets it, SW_RDY reads 0, and SEND_BUSY reads 0 in
every AUX block (R23, R25, R28, R34, R128, R154, R235, R263). The last two say so for the parameter values of
`REG_RESET` that have the bit 0, the default among them. -/
structure StateInv (s : State) : Prop where
  entries   : ∀ p, cfgOk (s.cfg.get p) (s.edidLen.get p)
  paths     : ∀ p, transportOk (s.transport.get p) (s.cfg.get p)
  oneClaim  : ∀ p q, (s.transport.get p).mode = .gmbus → (s.transport.get q).mode = .gmbus → p = q
  held      : ∀ i, statusBitIsHeld i = true → bit s.gmbus.status i = bit s.params.regReset i
  noInt     : stInt s.gmbus.status = true → stInt s.params.regReset = true
  noRdy     : cmdRdy s.params.regReset = false → cmdRdy s.gmbus.command = false
  notBusy   : auxctlSendBusy s.params.regReset = false → ∀ p, auxctlSendBusy (s.aux.get p).auxctl = false

/-- `t` differs from `s` in nothing but the response of the step. -/
def sameBut (s t : State) : Prop := t = { s with response := t.response }

/-- The port an AUX operation names (R130). -/
def auxPort : Instr → Option Port
  | .awCtl p _ | .awData1 p _ | .awData2 p _ | .awData3 p _ | .awData4 p _ | .awData5 p _
  | .awBadoff p _ _ | .ar p _
  | .auxreqClear p _ _ | .auxreqStop p _ _ | .auxreqAddr0 p _ _ | .auxreqStartEdid p _ _
  | .auxreqStartOther p _ _ | .auxreqSeek p _ _ | .auxreqWriteOther p _ _ | .auxreqRead p _ _
  | .auxreqReadBadlen p _ _ => some p
  | .invalidAuxport _ | .invalidHostport _ | .invalid _
  | .hostInit _ | .hostConfig _ _ _ _ | .hostReset
  | .grStatus _ | .grData _ | .grPass _ _
  | .gwControl _ _ | .gwCommand _ _ | .gwStatus _ _ | .gwData _ _ | .gwPass _ _ _
  | .cmdSwclrHeld _ | .cmdSwclrDone _ | .cmdNocycle _ | .cmdStop _ | .cmdNidxWait _ | .cmdIdxWait _
  | .cmdNidxStop _ | .cmdIdxStop _ | .cmdRsvd2 _ | .cmdRsvd6 _ => none

/-- The GMBUS accesses and the forms of a COMMAND write (R80, R99). -/
def isGmbusAccess : Instr → Bool
  | .grStatus _ | .grData _ | .grPass _ _
  | .gwControl _ _ | .gwCommand _ _ | .gwStatus _ _ | .gwData _ _ | .gwPass _ _ _
  | .cmdSwclrHeld _ | .cmdSwclrDone _ | .cmdNocycle _ | .cmdStop _ | .cmdNidxWait _ | .cmdIdxWait _
  | .cmdNidxStop _ | .cmdIdxStop _ | .cmdRsvd2 _ | .cmdRsvd6 _ => true
  | .invalidAuxport _ | .invalidHostport _ | .invalid _
  | .hostInit _ | .hostConfig _ _ _ _ | .hostReset
  | .awCtl _ _ | .awData1 _ _ | .awData2 _ _ | .awData3 _ _ | .awData4 _ _ | .awData5 _ _
  | .awBadoff _ _ _ | .ar _ _
  | .auxreqClear _ _ _ | .auxreqStop _ _ _ | .auxreqAddr0 _ _ _ | .auxreqStartEdid _ _ _
  | .auxreqStartOther _ _ _ | .auxreqSeek _ _ _ | .auxreqWriteOther _ _ _ | .auxreqRead _ _ _
  | .auxreqReadBadlen _ _ _ => false

end Sys2Proof.Machine
end

