-- ==== Sys2Proof/Certificates/Slice0/Obligations.lean ====
section
/-! DEFINITION. The statements. First the terms the statements are made in, written from the prose of the rules and
independent of the meanings; then one definition for each statement. -/

namespace Sys2Proof.Machine

open Sys2Proof Sys2Proof.Config

/-! ### Terms -/

/-- The response of an Ok step that returns no value (R250). -/
def okResponse (events : List Event) : Response := ⟨.ok, none, events⟩

/-- The response of an Ok read of width `w`: the value reduced to `8w` bits (R66). -/
def okRead (w x : Nat) (events : List Event) : Response := ⟨.ok, some (BitVec.ofNat 64 (x % 2 ^ (8 * w))), events⟩

/-- A width of 1, 2 or 4 bytes. -/
def narrowWidth (w : Nat) : Prop := w = 1 ∨ w = 2 ∨ w = 4

/-- A width of 1, 2, 4 or 8 bytes that divides the offset (R67). -/
def wellAligned (off w : Nat) : Prop := (w = 1 ∨ w = 2 ∨ w = 4 ∨ w = 8) ∧ off % w = 0

/-- The access lies wholly in the 24 bytes of the bank (R60, R68). -/
def insideBank (off w : Nat) : Prop := off + w ≤ 0x14 ∨ (0x20 ≤ off ∧ off + w ≤ 0x24)

/-- A read that the table of R69 does not admit. -/
def specialRead (off w : Nat) : Prop :=
  (off = 0x08 ∧ w = 8) ∨ (0x08 < off ∧ off < 0x0C) ∨ (0x0C < off ∧ off < 0x10)

/-- A write that the table of R69 does not admit. -/
def specialWrite (off w : Nat) : Prop :=
  ((off = 0x00 ∨ off = 0x04 ∨ off = 0x08) ∧ w ≠ 4) ∨
  (off < 0x10 ∧ off ≠ 0x00 ∧ off ≠ 0x04 ∧ off ≠ 0x08 ∧ off ≠ 0x0C)

/-- The form of a COMMAND write of `v` while the latched bit 31 is `oldClr` (R99). -/
def commandForm (oldClr : Bool) (v : Word) : Instr :=
  if oldClr then (if v.getLsbD 31 then .cmdSwclrHeld v else .cmdSwclrDone v)
  else if v.extractLsb' 25 3 = 0 then .cmdNocycle v
  else if v.extractLsb' 25 3 = 4 then .cmdStop v
  else if v.extractLsb' 25 3 = 1 then .cmdNidxWait v
  else if v.extractLsb' 25 3 = 3 then .cmdIdxWait v
  else if v.extractLsb' 25 3 = 5 then .cmdNidxStop v
  else if v.extractLsb' 25 3 = 7 then .cmdIdxStop v
  else if v.extractLsb' 25 3 = 2 then .cmdRsvd2 v
  else .cmdRsvd6 v

/-- The class of an AUXCTL write of `v` while DATA1 is `d1` and `EDID_ADDR` is `edid`, first match wins (R97, R193; R97
writes the default 0x50 for `EDID_ADDR`). -/
def auxClass (edid : BitVec 7) (p : Port) (v d1 : Word) : Instr :=
  if v.getLsbD 31 = false then .auxreqClear p v d1
  else if v.extractLsb' 20 5 = 3 ∧ d1.getLsbD 30 = false then .auxreqStop p v d1
  else if v.extractLsb' 20 5 = 3 ∧ d1.extractLsb' 8 16 = 0 then .auxreqAddr0 p v d1
  else if v.extractLsb' 20 5 = 3 ∧ d1.extractLsb' 8 16 = edid.setWidth 16 then .auxreqStartEdid p v d1
  else if v.extractLsb' 20 5 = 3 then .auxreqStartOther p v d1
  else if d1.getLsbD 28 = false ∧ d1.extractLsb' 8 16 = edid.setWidth 16 then .auxreqSeek p v d1
  else if d1.getLsbD 28 = false then .auxreqWriteOther p v d1
  else if v.extractLsb' 20 5 = 4 then .auxreqRead p v d1
  else .auxreqReadBadlen p v d1

/-- Whether GMBUS admits an optional port: a monitor that is not DisplayPort (R129, R143). -/
def gmbusAdmits (s : State) : Option Port → Bool
  | some p => (s.cfg.get p).hasMonitor && !(s.cfg.get p).isDisplayport
  | none => false

/-- STATUS bit `i` after a controller reset (R143). -/
def resetStatusBit (admitted : Bool) (st : Word) (i : Nat) : Bool :=
  if i = 9 then false else if i = 11 then true else if i = 14 then true
  else if i = 10 then !admitted else st.getLsbD i

/-- The transports after a controller reset that selects `q`: the zero form, but for the mode and the admission of the
selected port (R143, R144). -/
def resetTransports (admitted : Bool) (q : Option Port) : PortMap Transport :=
  match q with
  | some p => (PortMap.fill Transport.zero).set p { Transport.zero with mode := .gmbus, edidAvailable := admitted }
  | none => .fill .zero

/-- `T[P]` after the fields of a decoded COMMAND value, `EDID_ADDR` being `edid` (R150, R155, R157). -/
def decodedTransport (edid : BitVec 7) (v : Word) (t : Transport) : Transport :=
  { t with
    slaveSelected := t.slaveSelected || v.extractLsb' 1 7 == edid
    readCursor := if v.getLsbD 26 then (v.extractLsb' 8 8).toNat else t.readCursor
    gmbus := { t.gmbus with totalByteCount := (v.extractLsb' 16 9).setWidth 16, cycleType := v.extractLsb' 25 3 } }

/-- The events of the fields of a decoded COMMAND value, `EDID_ADDR` being `edid` (R150, R155, R162). -/
def decodedEvents (edid : BitVec 7) (v : Word) (active : Option Port) : List Event :=
  (if v.extractLsb' 1 7 ≠ 0 ∧ v.extractLsb' 1 7 ≠ edid then [.unsupportedSlave (v.extractLsb' 1 7)] else []) ++
  (if active = none then [.noActivePort] else [])

/-- `t` is `s` after a decoded COMMAND write of `v` whose cycle type acts on the active port's transport by `f`, leaves
ACTIVE at `active` (none: as it was) and logs `more` (R150, R152, R154, R155, R157, R161, R162). Everything else is as
in `s`. -/
structure CommandDecoded (s t : State) (v : Word) (f : Transport → Transport) (active : Option Bool)
    (more : List Event) : Prop where
  command   : ∀ i < 32, t.gmbus.command.getLsbD i = if i = 30 then false else v.getLsbD i
  status    : ∀ i < 32, t.gmbus.status.getLsbD i =
    if i = 12 ∧ v.getLsbD 31 then false else if i = 11 ∧ v.getLsbD 31 then true
    else if i = 9 then active.getD (s.gmbus.status.getLsbD 9) else s.gmbus.status.getLsbD i
  path      : ∀ p, s.activePort = some p →
    t.transport = s.transport.set p (f (decodedTransport s.params.edidAddr v (s.transport.get p)))
  noPath    : s.activePort = none → t.transport = s.transport
  response  : t.response = okResponse (decodedEvents s.params.edidAddr v s.activePort ++ more)
  frame     : t = { s with
    gmbus := { s.gmbus with command := t.gmbus.command, status := t.gmbus.status }
    transport := t.transport
    response := t.response }

/-- The EDID cursor of `p` would deliver a byte, but for its position (R230). -/
def serving (s : State) (p : Port) : Prop :=
  (s.transport.get p).mode ≠ .notSpecified ∧ (s.transport.get p).slaveSelected = true ∧
  (s.transport.get p).edidAvailable = true ∧ (s.cfg.get p).hasMonitor = true

/-- Why the EDID cursor of `p` refuses whatever its position, the first failing precondition (R230, R231). -/
def refusal (s : State) (p : Port) : Option Violation :=
  if (s.transport.get p).mode = .notSpecified ∨ (s.transport.get p).slaveSelected = false then some .notSelected
  else if (s.transport.get p).edidAvailable = false then some .unavailable
  else if (s.cfg.get p).hasMonitor = false then some .noMonitor
  else none

/-- The byte of DATA above a partial fill (R166). -/
def upperByte (s : State) (j : Nat) : Byte :=
  match s.params.dataPartialUpper with
  | .keep => s.gmbus.data.extractLsb' (8 * j) 8
  | .zero => 0

/-- The result of a batched DATA read of the active port `p` of `s`: DATA, the transports, the response; nothing else
(R163, R166, R167). -/
def dataReadFrame (s t : State) (w : Nat) (events : List Event) : Prop :=
  t = { s with
    gmbus := { s.gmbus with data := t.gmbus.data }
    transport := t.transport
    response := okRead w t.gmbus.data.toNat events }

/-- `n` 4-byte DATA reads in a row: the values returned and the state after them. -/
def dataReads : Nat → State → Option (List (BitVec 64) × State)
  | 0, s => some ([], s)
  | n + 1, s =>
    match exec (.grData 4) s with
    | .next t =>
      match t.response.value, dataReads n t with
      | some v, some (vs, u) => some (v :: vs, u)
      | _, _ => none
    | _ => none

/-- The four bytes of a 4-byte DATA value, in order (R166). -/
def fourBytes (v : BitVec 64) : List Byte :=
  [v.extractLsb' 0 8, v.extractLsb' 8 8, v.extractLsb' 16 8, v.extractLsb' 24 8]

/-- The reply size of a request (R196). -/
def replySizeOf (params : Params) (v d1 : Word) : Nat :=
  if d1.getLsbD 28 then (if v.extractLsb' 20 5 = 3 then params.auxBareReadReplySize.toNat else 2) else 1

/-- The AUX block of `p` after a triggered write that replies with the byte `b`: AUXCTL = DONE and the size, DATA1 =
the ACK code and the byte, DATA2 to DATA5 kept (R98, R196, R205, R207). -/
def repliedBlock (s : State) (p : Port) (v d1 : Word) (b : Byte) : AuxBlock :=
  { s.aux.get p with
    auxctl := BitVec.ofNat 32 (2 ^ 30 + replySizeOf s.params v d1 * 2 ^ 20)
    data1 := BitVec.ofNat 32 (s.params.auxAckCode.toNat * 2 ^ 24 + b.toNat * 2 ^ 16) }

/-- `s` after a triggered request on `p` that replies with `b`, leaves `T[p]` at `tp` and logs `events`. -/
def afterRequest (s : State) (p : Port) (v d1 : Word) (b : Byte) (tp : Transport) (events : List Event) : State :=
  { s with
    aux := s.aux.set p (repliedBlock s p v d1 b)
    transport := s.transport.set p tp
    response := okResponse events }

/-- A GMBUS access that does a controller reset at `s`: a CONTROL write whose selector resolves, and a software-clear
completion, as a COMMAND write or as its form (R130, R143). A write of another width is refused (R69). -/
def resetsController (s : State) (i : Instr) : Prop :=
  (∃ v, i = .gwControl 4 v ∧ resolve s.params (v.extractLsb' 0 3) ≠ none) ∨
  (∃ v, i = .gwCommand 4 v ∧ s.gmbus.command.getLsbD 31 = true ∧ v.getLsbD 31 = false) ∨
  (∃ v, i = .cmdSwclrDone v)

/-- The state in which a GMBUS call, or any other, has been taken from the stream. -/
def taken (s : State) (rest : List Request) : State := { s with pending := rest }

end Sys2Proof.Machine

open Sys2Proof Sys2Proof.Machine Sys2Proof.Config

/-! ### Encoding -/

/-- Every well-formed instruction is what its words decode to (R81, R105). -/
def Obligations.DecodeOfEncode : Prop :=
  ∀ i : Instr, i.wellFormed = true → decode (encode i) = .ok i

/-- Every word of every format decodes, and to an instruction whose operands its row admits (R105). -/
def Obligations.EveryWordDecodesWellFormed : Prop :=
  ∀ c : CodeWord, ∃ i : Instr, decode c = .ok i ∧ i.wellFormed = true

/-- The CMD rows of the table select the forms of R99. -/
def Obligations.CommandRowsSelectForms : Prop :=
  ∀ (oldClr : Bool) (v : Word), decode (.command (cmdKey oldClr v)) = .ok (commandForm oldClr v)

/-- The AUXREQ rows of the table select the classes of R97, which the table and the rule write for `EDID_ADDR` =
0x50. -/
def Obligations.AuxRowsSelectClasses : Prop :=
  ∀ (p : Port) (v d1 : Word), decode (.auxRequest (auxKey v d1) p) = .ok (auxClass 0x50 p v d1)

/-- A call and the descriptor that summarises it are the same operation (R81 to R83, R190). -/
def Obligations.DescriptorsRouteLikeCalls : Prop :=
  (∀ off w, off < 256 → (w = 1 ∨ w = 2 ∨ w = 4 ∨ w = 8) →
    decode (encodeGmbusRead off w) = .ok (route (.gmbusRead off w))) ∧
  (∀ off w v, off < 256 → (w = 1 ∨ w = 2 ∨ w = 4 ∨ w = 8) →
    decode (encodeGmbusWrite off w v) = .ok (route (.gmbusWrite off w v))) ∧
  (∀ p off v, decode (encodeAuxWrite p (off.extractLsb' 0 8) v) = .ok (route (.auxWrite p off v))) ∧
  (∀ p off, decode (.access (descriptorOf 1 false (portField p) 0 0 (off.extractLsb' 0 8)) .zero) =
    .ok (route (.auxRead p off))) ∧
  (∀ p, decode (encode (.hostInit p)) = .ok (route (.initTransport p))) ∧
  (∀ p mon dp edid, decode (encode (.hostConfig p mon dp edid)) = .ok (route (.configure p mon dp edid))) ∧
  decode (encode .hostReset) = .ok (route .controllerReset)

/-- A few words of the encoding, written out from R81 and R105 (the vectors of 95_test_vectors.md L2.11). That
the operands are zero and that the AUXREQ word is one of port A is the model's choice of how a table word is laid out, not
the spec's: log 11. -/
def Obligations.SampleWordsDecode : Prop :=
  decodeTableWord 32 0x0200000C = some (.grData 4) ∧
  decodeTableWord 32 0x22000004 = some (.gwCommand 4 0) ∧
  decodeTableWord 32 0x64000024 = some (.awData5 .B 0) ∧
  decodeTableWord 32 0x84010000 = some (.hostConfig .B false false none) ∧
  decodeTableWord 32 0x78000010 = some (.invalidAuxport 0x78000010) ∧
  decodeTableWord 33 0x04A0800A1 = some (.cmdNidxStop 0x4A0800A1) ∧
  decodeTableWord 64 0x8030000040005000 = some (.auxreqStartEdid .A 0x80300000 0x40005000)

/-- The word that `gmbus.cmd` composes has its operands in the fields that a COMMAND write reads, and SW_RDY set
(R85, R104). -/
def Obligations.ComposedCommandHasItsFields : Prop :=
  ∀ cyc cnt idx addr dir,
    cmdCycle (gmbusCmdWord cyc cnt idx addr dir) = cyc ∧
    cmdCount (gmbusCmdWord cyc cnt idx addr dir) = cnt.setWidth 16 ∧
    cmdIndex (gmbusCmdWord cyc cnt idx addr dir) = idx ∧
    cmdAddr (gmbusCmdWord cyc cnt idx addr dir) = addr ∧
    cmdDir (gmbusCmdWord cyc cnt idx addr dir) = dir ∧
    cmdRdy (gmbusCmdWord cyc cnt idx addr dir) = true ∧
    cmdClr (gmbusCmdWord cyc cnt idx addr dir) = false

/-! ### Steps -/

/-- A step takes the next call from the stream and runs its operation, whether the call is spelled by its arguments or
by a descriptor that decodes to it (R12, R40). That a step with no call pending stops with `streamEnded` is the model's
choice, not a rule of the spec: log 4. -/
def Obligations.StepRunsNextCall : Prop :=
  (∀ s r rest, s.pending = r :: rest → step s = exec (route r) (taken s rest)) ∧
  (∀ s d ops rest i, s.pending = .descriptor d ops :: rest → decode (.access d ops) = .ok i →
    step s = exec i (taken s rest)) ∧
  (∀ s, s.pending = [] → step s = .fault .streamEnded)

/-- A step on an admitted COMMAND write runs the CMD row that the latched bit 31 and the written value select, and a
step on an AUXCTL write runs the class that the value, the latched DATA1 and `EDID_ADDR` select (R102, R193), which is
the AUXREQ row wherever `EDID_ADDR` is 0x50, the value the table is written for (R105). -/
def Obligations.StepRunsSelectedRow : Prop :=
  (∀ s v rest i, s.pending = .gmbusWrite 0x04 4 v :: rest →
    decode (.command (cmdKey (s.gmbus.command.getLsbD 31) (v.setWidth 32))) = .ok i →
    step s = exec i (taken s rest)) ∧
  (∀ s p off v rest, s.pending = .auxWrite p off v :: rest → off.extractLsb' 0 8 = (0x10 : Byte) →
    step s = exec (auxClass s.params.edidAddr p v (s.aux.get p).data1) (taken s rest)) ∧
  (∀ s p off v rest i, s.pending = .auxWrite p off v :: rest → off.extractLsb' 0 8 = (0x10 : Byte) →
    s.params.edidAddr = 0x50 → decode (.auxRequest (auxKey v (s.aux.get p).data1) p) = .ok i →
    step s = exec i (taken s rest))

/-- The state after reset (R44, R280). That no port is configured, that GEN is Legacy and that the response is empty
are the model's choices (log 2, 14, 16). -/
def Obligations.ResetState : Prop :=
  (∀ r, State.reset.gmbus.get r = 0) ∧
  (∀ p r, (State.reset.aux.get p).get r = 0) ∧
  (∀ p, State.reset.transport.get p = Transport.zero) ∧
  (∀ p, State.reset.cfg.get p = ⟨false, false, false, none⟩) ∧
  (∀ p, State.reset.edidLen.get p = 128) ∧
  State.reset.activePort = none ∧
  State.reset.response = okResponse [] ∧
  State.reset.params.gen = .legacy

/-! ### Admission of GMBUS accesses -/

/-- A GMBUS access with an illegal width or offset changes nothing and returns MalformedAccess, before any other check
(R67, R251). -/
def Obligations.MalformedAccessChangesNothing : Prop :=
  ∀ s off w v, ¬ wellAligned off w →
    exec (routeGmbusRead off w) s = .next { s with response := ⟨.malformedAccess, none, []⟩ } ∧
    exec (routeGmbusWrite off w v) s = .next { s with response := ⟨.malformedAccess, none, []⟩ }

/-- A well-formed GMBUS access not wholly in the bank is refused (R68). -/
def Obligations.OutsideWindowRefused : Prop :=
  ∀ s off w v, wellAligned off w → ¬ insideBank off w →
    exec (routeGmbusRead off w) s = .next { s with response := ⟨.refused .outsideWindow, none, []⟩ } ∧
    exec (routeGmbusWrite off w v) s = .next { s with response := ⟨.refused .outsideWindow, none, []⟩ }

/-- A well-formed access in the bank is refused exactly where the table of R69 does not admit it, and otherwise ends Ok,
or as a rejected DATA write. -/
def Obligations.AdmissionFollowsWidthTable : Prop :=
  ∀ s off w v, wellAligned off w → insideBank off w →
    (specialRead off w →
      exec (routeGmbusRead off w) s = .next { s with response := ⟨.refused .specialWidth, none, []⟩ }) ∧
    (¬ specialRead off w → ∃ t, exec (routeGmbusRead off w) s = .next t ∧ t.response.outcome = .ok) ∧
    (specialWrite off w →
      exec (routeGmbusWrite off w v) s = .next { s with response := ⟨.refused .specialWidth, none, []⟩ }) ∧
    (¬ specialWrite off w → ∃ t, exec (routeGmbusWrite off w v) s = .next t ∧
      t.response.outcome = if off = 0x0C then .rejectedDataWrite else .ok)

/-! ### GMBUS registers -/

/-- A STATUS read sets in-use and nothing else, at every width, and returns the old or the new value as
`INUSE_READ_RETURNS` says (R170, R171). -/
def Obligations.StatusReadSetsInuse : Prop :=
  ∀ s w, narrowWidth w →
    exec (.grStatus w) s = .next { s with
      gmbus := { s.gmbus with status := s.gmbus.status ||| 0x8000#32 }
      response := okRead w
        (match s.params.inuseReadReturns with
          | .old => s.gmbus.status.toNat
          | .new => (s.gmbus.status ||| 0x8000#32).toNat) [] }

/-- A STATUS write clears in-use when bit 15 of the value is 1; no other bit is writable (R172). -/
def Obligations.StatusWriteClearsInuseOnly : Prop :=
  ∀ s v, ∃ t, exec (.gwStatus 4 v) s = .next t ∧
    (∀ i < 32, t.gmbus.status.getLsbD i =
      if i = 15 ∧ v.getLsbD 15 then false else s.gmbus.status.getLsbD i) ∧
    t = { s with gmbus := { s.gmbus with status := t.gmbus.status }, response := okResponse [] }

/-- An admitted passthrough read returns the addressed bytes of the bank, the lowest in bits 7:0, and changes nothing
(R60, R66, R147). -/
def Obligations.PassthroughReadReturnsBytes : Prop :=
  ∀ s off w, wellAligned off w → insideBank off w → (off < 0x08 ∨ 0x10 ≤ off) →
    ∃ x : BitVec 64,
      exec (.grPass off w) s = .next { s with response := ⟨.ok, some x, []⟩ } ∧
      (∀ j < w, bankByte s.gmbus (off + j) = some (x.extractLsb' (8 * j) 8)) ∧
      x.toNat < 2 ^ (8 * w)

/-- A passthrough write stores byte j of the value at `off + j` and leaves every other byte of the bank and every other
part of the state as it was (R60, R148). -/
def Obligations.PassthroughWriteStoresBytes : Prop :=
  ∀ s off w v, wellAligned off w → insideBank off w → 0x10 ≤ off →
    ∃ t, exec (.gwPass off w v) s = .next t ∧
      (∀ j < w, bankByte t.gmbus (off + j) = some (v.extractLsb' (8 * j) 8)) ∧
      (∀ a, ¬ (off ≤ a ∧ a < off + w) → bankByte t.gmbus a = bankByte s.gmbus a) ∧
      t = { s with gmbus := t.gmbus, response := okResponse [] }

/-- The bytes of the bank are the bytes of the six registers, little-endian, and there is no other (R21, R60, R64). -/
def Obligations.BankIsSixRegisters : Prop :=
  (∀ (g : GmbusRegs) (r : BankReg) (j : Nat), j < 4 →
    bankByte g (r.offset + j) = some ((g.get r).extractLsb' (8 * j) 8)) ∧
  (∀ (g : GmbusRegs) (a : Nat), (¬ a < 0x14 ∧ ¬ (0x20 ≤ a ∧ a < 0x24)) → bankByte g a = none)

/-- A DATA write is rejected with its event and changes nothing (R169, R255). -/
def Obligations.DataWriteRejectedUnchanged : Prop :=
  ∀ s w v, narrowWidth w →
    exec (.gwData w v) s = .next { s with response := ⟨.rejectedDataWrite, none, [.dataWriteRejected]⟩ }

/-- The default pin tables (R122). The spec marks the tables as its own, from general knowledge: log 17. -/
def Obligations.DefaultPinTables : Prop :=
  ∀ sel : BitVec 3,
    (resolve (.defaults .legacy) sel =
      if sel = 2 then some .E else if sel = 4 then some .C else if sel = 5 then some .B
      else if sel = 6 then some .D else none) ∧
    (resolve (.defaults .bxt) sel =
      if sel = 1 then some .B else if sel = 2 then some .C else if sel = 3 then some .D else none) ∧
    (resolve (.defaults .cnp) sel =
      if sel = 1 then some .B else if sel = 2 then some .C else if sel = 3 then some .D
      else if sel = 4 then some .E else none)

/-- A CONTROL write whose selector resolves latches the value and resets the controller for the selected port
(R141, R143, R144). That HW_RDY and HW_WAIT_PHASE are set is the spec's own choice, from general knowledge: log 17. -/
def Obligations.ControlWriteSelectsPort : Prop :=
  ∀ s (v : BitVec 64) q, resolve s.params (v.extractLsb' 0 3) = some q →
    ∃ t, exec (.gwControl 4 v) s = .next t ∧
      (∀ i < 32, t.gmbus.status.getLsbD i = resetStatusBit (gmbusAdmits s (some q)) s.gmbus.status i) ∧
      t = { s with
        gmbus := { s.gmbus with control := v.setWidth 32, status := t.gmbus.status }
        transport := resetTransports (gmbusAdmits s (some q)) (some q)
        response := okResponse [] }

/-- A CONTROL write whose selector resolves to none logs it and changes nothing, except that the value is latched when
`CONTROL_LATCH_UNRESOLVED` is true (R123, R141, R142). -/
def Obligations.ControlWriteUnresolved : Prop :=
  ∀ s (v : BitVec 64), resolve s.params (v.extractLsb' 0 3) = none →
    exec (.gwControl 4 v) s = .next { s with
      gmbus := { s.gmbus with
        control := if s.params.controlLatchUnresolved then v.setWidth 32 else s.gmbus.control }
      response := okResponse [.unresolvedPort (v.extractLsb' 0 3)] }

/-! ### COMMAND -/

/-- An admitted COMMAND write completes, and does what the form that R99 selects does. -/
def Obligations.CommandWriteRunsSelectedForm : Prop :=
  ∀ s (v : BitVec 64), ∃ t, exec (.gwCommand 4 v) s = .next t ∧
    exec (commandForm (s.gmbus.command.getLsbD 31) (v.setWidth 32)) s = .next t

/-- A software-clear completion clears bit 31 of the latched COMMAND and keeps its other bits, resets the controller for
the active port, which may be none, and clears INT (R143, R153). That the reset sets HW_RDY and HW_WAIT_PHASE is the spec's
own choice, from general knowledge: log 17. -/
def Obligations.SoftwareClearCompletes : Prop :=
  ∀ s v, ∃ t, exec (.cmdSwclrDone v) s = .next t ∧
    (∀ i < 32, t.gmbus.command.getLsbD i = if i = 31 then false else s.gmbus.command.getLsbD i) ∧
    (∀ i < 32, t.gmbus.status.getLsbD i =
      if i = 12 then false else resetStatusBit (gmbusAdmits s s.activePort) s.gmbus.status i) ∧
    t = { s with
      gmbus := { s.gmbus with command := t.gmbus.command, status := t.gmbus.status }
      transport := resetTransports (gmbusAdmits s s.activePort) s.activePort
      response := okResponse [] }

/-- NoCycle: the fields are stored and the value latched; no transition (R156). -/
def Obligations.NoCycleStoresFields : Prop :=
  ∀ s v, ∃ t, exec (.cmdNocycle v) s = .next t ∧ CommandDecoded s t v (fun x => x) none []

/-- The four data cycles: the active port's phase becomes Data and ACTIVE is set (R159; that ACTIVE is set is the spec's
own choice, from general knowledge: log 17). -/
def Obligations.DataCyclesEnterData : Prop :=
  ∀ s v, ∀ i ∈ [Instr.cmdNidxWait v, .cmdIdxWait v, .cmdNidxStop v, .cmdIdxStop v],
    ∃ t, exec i s = .next t ∧
      CommandDecoded s t v (fun x => { x with gmbus := { x.gmbus with phase := .data } }) (some true) []

/-- The reserved cycles are logged and change no phase (R160). -/
def Obligations.ReservedCyclesLogged : Prop :=
  ∀ s v, ∀ ic ∈ [(Instr.cmdRsvd2 v, 2#3), (Instr.cmdRsvd6 v, 6#3)],
    ∃ t, exec ic.1 s = .next t ∧
      CommandDecoded s t v (fun x => x) none [.protocolViolation (.reservedCycle ic.2)]

/-- A Stop whose latched CYCLE is not NoCycle reinitialises the active port and clears ACTIVE; otherwise it changes no
phase and no flag (R158). That ACTIVE is cleared is the spec's own choice, from general knowledge: log 17. -/
def Obligations.StopGatedByLatchedCycle : Prop :=
  ∀ s v, ∃ t, exec (.cmdStop v) s = .next t ∧
    (s.gmbus.command.extractLsb' 25 3 ≠ 0 → CommandDecoded s t v (fun _ => Transport.zero) (some false) []) ∧
    (s.gmbus.command.extractLsb' 25 3 = 0 → CommandDecoded s t v (fun x => x) none [])

/-! ### DATA reads and the EDID cursor -/

/-- A DATA read with the direction bit clear returns the latched value, logs it and changes nothing, whatever else the
state is (R163). -/
def Obligations.DataReadWrongDirection : Prop :=
  ∀ s w, narrowWidth w → s.gmbus.command.getLsbD 0 = false →
    exec (.grData w) s = .next { s with
      response := okRead w s.gmbus.data.toNat [.protocolViolation .dataReadNotReadDirection] }

/-- A DATA read in the read direction with no active port returns the latched value, logs it and changes nothing
(R168). -/
def Obligations.DataReadNoActivePort : Prop :=
  ∀ s w, narrowWidth w → s.gmbus.command.getLsbD 0 = true → s.activePort = none →
    exec (.grData w) s = .next { s with response := okRead w s.gmbus.data.toNat [.noActivePort] }

/-- A DATA read with no bytes remaining returns the latched value, consumes nothing and logs nothing (R164). -/
def Obligations.DataReadExhausted : Prop :=
  ∀ s w p, narrowWidth w → s.gmbus.command.getLsbD 0 = true → s.activePort = some p →
    (s.transport.get p).gmbus.totalByteCount.toNat ≤ (s.transport.get p).readCursor →
    exec (.grData w) s = .next { s with response := okRead w s.gmbus.data.toNat [] }

/-- A DATA read with `rem` bytes remaining on a serving port pulls `k = min(rem, 4)` bytes whatever its width: the
first `m` of them, those still in the buffer, are the EDID bytes at the cursor, the others are 0x00 with the event
OutOfRange; the cursor advances by `m`, and a read with `rem ≤ 4` reinitialises the port instead
(R163, R165 to R167, R230). -/
def Obligations.DataReadDeliversBytes : Prop :=
  ∀ s w p bytes rem k m, narrowWidth w → s.gmbus.command.getLsbD 0 = true → s.activePort = some p →
    serving s p → (s.cfg.get p).edid = some bytes → s.edidLen.get p = bytes.length →
    (s.transport.get p).gmbus.totalByteCount.toNat = (s.transport.get p).readCursor + rem → 0 < rem →
    k = min rem 4 → m = min k (bytes.length - (s.transport.get p).readCursor) →
    ∃ t, exec (.grData w) s = .next t ∧
      dataReadFrame s t w (List.replicate (k - m) (.protocolViolation .outOfRange)) ∧
      (∀ j < m, bytes[(s.transport.get p).readCursor + j]? = some (t.gmbus.data.extractLsb' (8 * j) 8)) ∧
      (∀ j, m ≤ j → j < k → t.gmbus.data.extractLsb' (8 * j) 8 = 0) ∧
      (∀ j, k ≤ j → j < 4 → t.gmbus.data.extractLsb' (8 * j) 8 = upperByte s j) ∧
      t.transport = s.transport.set p
        (if rem ≤ 4 then Transport.zero
          else { s.transport.get p with readCursor := (s.transport.get p).readCursor + m })

/-- A DATA read on a port whose cursor refuses pulls `k` zero bytes with `k` events of the first failing precondition;
the cursor does not move, and the transaction ends only if this was its last batch (R165, R230, R231, R294). -/
def Obligations.DataReadRefusedByCursor : Prop :=
  ∀ s w p kind rem k, narrowWidth w → s.gmbus.command.getLsbD 0 = true → s.activePort = some p →
    refusal s p = some kind →
    (s.transport.get p).gmbus.totalByteCount.toNat = (s.transport.get p).readCursor + rem → 0 < rem →
    k = min rem 4 →
    ∃ t, exec (.grData w) s = .next t ∧
      dataReadFrame s t w (List.replicate k (.protocolViolation kind)) ∧
      (∀ j < k, t.gmbus.data.extractLsb' (8 * j) 8 = 0) ∧
      (∀ j, k ≤ j → j < 4 → t.gmbus.data.extractLsb' (8 * j) 8 = upperByte s j) ∧
      t.transport = s.transport.set p (if rem ≤ 4 then Transport.zero else s.transport.get p)

/-- Consecutive 4-byte DATA reads of a transaction of `n` bytes from cursor 0 deliver exactly the first `n` bytes of the
port's EDID, in order, and leave the port in its zero form (R165 to R167, R230). -/
def Obligations.DataReadsDeliverFirstBytes : Prop :=
  ∀ s p bytes n, s.gmbus.command.getLsbD 0 = true → s.activePort = some p → serving s p →
    (s.cfg.get p).edid = some bytes → s.edidLen.get p = bytes.length →
    (s.transport.get p).readCursor = 0 → (s.transport.get p).gmbus.totalByteCount.toNat = n →
    0 < n → n ≤ bytes.length →
    ∃ vs t, dataReads ((n + 3) / 4) s = some (vs, t) ∧
      (vs.flatMap fourBytes).take n = bytes.take n ∧
      t.transport = s.transport.set p Transport.zero

/-! ### AUX -/

/-- A DATA-word write is a plain store to one word of one port (R192). -/
def Obligations.AuxDataWordStores : Prop :=
  ∀ s p v, ∀ ir ∈ [(Instr.awData1 p v, AuxReg.data1), (.awData2 p v, .data2), (.awData3 p v, .data3),
      (.awData4 p v, .data4), (.awData5 p v, .data5)],
    ∃ t, exec ir.1 s = .next t ∧
      (t.aux.get p).get ir.2 = v ∧
      (∀ r, r ≠ ir.2 → (t.aux.get p).get r = (s.aux.get p).get r) ∧
      (∀ q, q ≠ p → t.aux.get q = s.aux.get q) ∧
      t = { s with aux := t.aux, response := okResponse [] }

/-- An AUX read returns the register that the fixed table maps the low offset byte to, and changes nothing; an offset
outside the table is the caller's bug, for a read as for a write (R190, R191, R206). -/
def Obligations.AuxReadAndBadOffset : Prop :=
  (∀ s p, ∀ ro ∈ [(AuxReg.auxctl, 0x10#8), (.data1, 0x14#8), (.data2, 0x18#8), (.data3, 0x1C#8), (.data4, 0x20#8),
      (.data5, 0x24#8)],
    exec (.ar p ro.2) s = .next { s with
      response := ⟨.ok, some (((s.aux.get p).get ro.1).setWidth 64), []⟩ }) ∧
  (∀ s p v (off : Byte), off ∉ [0x10#8, 0x14#8, 0x18#8, 0x1C#8, 0x20#8, 0x24#8] →
    exec (.ar p off) s = .next { s with response := ⟨.faultAuxBadOffset, none, []⟩ } ∧
    exec (.awBadoff p off v) s = .next { s with response := ⟨.faultAuxBadOffset, none, []⟩ })

/-- An AUXCTL write completes, and does what the class that R97 selects does, for every `EDID_ADDR` (R193). -/
def Obligations.AuxctlWriteRunsSelectedClass : Prop :=
  ∀ s p v, ∃ t, exec (.awCtl p v) s = .next t ∧ exec (auxClass s.params.edidAddr p v (s.aux.get p).data1) s = .next t

/-- Every triggered AUXCTL write leaves DONE set, SEND_BUSY clear, the reply size in SIZE and every other AUXCTL bit 0,
and never changes DATA2 to DATA5 (R98, R196, R207). -/
def Obligations.TriggeredWriteAlwaysReplies : Prop :=
  ∀ s p (v : Word), v.getLsbD 31 = true →
    ∃ t, exec (.awCtl p v) s = .next t ∧ t.response.outcome = .ok ∧
      (t.aux.get p).auxctl = BitVec.ofNat 32 (2 ^ 30 + replySizeOf s.params v (s.aux.get p).data1 * 2 ^ 20) ∧
      (t.aux.get p).data2 = (s.aux.get p).data2 ∧ (t.aux.get p).data3 = (s.aux.get p).data3 ∧
      (t.aux.get p).data4 = (s.aux.get p).data4 ∧ (t.aux.get p).data5 = (s.aux.get p).data5

/-- A COMMAND write with bit 31 set while a software clear is held, and a clear-status AUXCTL write, change nothing
(R151, R194). -/
def Obligations.IgnoredWritesChangeNothing : Prop :=
  ∀ s p v d1, ∀ i ∈ [Instr.cmdSwclrHeld v, .auxreqClear p v d1],
    exec i s = .next { s with response := okResponse [] }

/-- A bare STOP and an address reset reinitialise the port, whatever its mode (R197, R199, R205). -/
def Obligations.StopAndAddressResetReinitialise : Prop :=
  ∀ s p v d1, ∀ i ∈ [Instr.auxreqStop p v d1, .auxreqAddr0 p v d1],
    exec i s = .next (afterRequest s p v d1 0 Transport.zero [])

/-- A bare START to the EDID address claims the port for AUX, reinitialising it first if GMBUS had it; the cursor
survives otherwise (R198). -/
def Obligations.StartClaimsPort : Prop :=
  ∀ s p v d1,
    exec (.auxreqStartEdid p v d1) s = .next (afterRequest s p v d1 0
      { (if (s.transport.get p).mode = .gmbus then Transport.zero else s.transport.get p) with
        mode := .auxChannel
        slaveSelected := true
        edidAvailable := (s.cfg.get p).hasMonitor && (s.cfg.get p).isDisplayport
        aux := ⟨true, true⟩ } [])

/-- An EDID write of 5 bytes or more seeds the cursor with bits 31:24 of DATA2; a shorter one only logs (R201). -/
def Obligations.SeekSeedsCursor : Prop :=
  ∀ s p (v d1 : Word),
    exec (.auxreqSeek p v d1) s = .next (
      if 5 ≤ (v.extractLsb' 20 5).toNat then
        afterRequest s p v d1 0
          { s.transport.get p with readCursor := ((s.aux.get p).data2.extractLsb' 24 8).toNat } []
      else afterRequest s p v d1 0 (s.transport.get p) [.auxSeekTooShort])

/-- A bare START to another address sets the two flags and a write to another address nothing; both get the generic
reply and log the address (R200, R202). What a START to another address does is the spec's own decision (D45), not its
source's. -/
def Obligations.OtherAddressesLogged : Prop :=
  ∀ s p v d1,
    exec (.auxreqStartOther p v d1) s = .next (afterRequest s p v d1 0
      { s.transport.get p with aux := ⟨true, true⟩ } [.unsupportedAuxAddress (d1.extractLsb' 8 16)]) ∧
    exec (.auxreqWriteOther p v d1) s = .next (afterRequest s p v d1 0 (s.transport.get p)
      [.unsupportedAuxAddress (d1.extractLsb' 8 16)])

/-- An AUX read of a serving port replies with the EDID byte at the cursor and advances the cursor by one (R203,
R230). -/
def Obligations.AuxReadDeliversByte : Prop :=
  ∀ s p v d1 bytes b, serving s p → (s.cfg.get p).edid = some bytes →
    (s.transport.get p).readCursor < s.edidLen.get p → bytes[(s.transport.get p).readCursor]? = some b →
    exec (.auxreqRead p v d1) s = .next (afterRequest s p v d1 b
      { s.transport.get p with readCursor := (s.transport.get p).readCursor + 1 } [])

/-- An AUX read of a port that is not available or not selected replies with the NAK byte; one that the cursor refuses
replies with 0x00; neither changes the transport (R203, R230). -/
def Obligations.AuxReadSentinels : Prop :=
  ∀ s p v d1,
    (¬ ((s.transport.get p).edidAvailable = true ∧ (s.transport.get p).slaveSelected = true) →
      exec (.auxreqRead p v d1) s = .next (afterRequest s p v d1 s.params.auxNakByte (s.transport.get p)
        [.protocolViolation .auxNoDevice])) ∧
    ((s.transport.get p).edidAvailable = true ∧ (s.transport.get p).slaveSelected = true →
      (∀ kind, refusal s p = some kind →
        exec (.auxreqRead p v d1) s = .next (afterRequest s p v d1 0 (s.transport.get p)
          [.protocolViolation kind])) ∧
      (refusal s p = none → s.edidLen.get p ≤ (s.transport.get p).readCursor →
        exec (.auxreqRead p v d1) s = .next (afterRequest s p v d1 0 (s.transport.get p)
          [.protocolViolation .outOfRange])))

/-- A read of a wrong length logs it and changes no transport; AUXCTL has the reply control, and DATA1 keeps the request
under `abort` and takes the NAK byte under `sentinel` (R204). -/
def Obligations.WrongLengthReadFollowsPolicy : Prop :=
  ∀ s p (v d1 : Word),
    exec (.auxreqReadBadlen p v d1) s = .next (
      match s.params.auxBadlenPolicy with
      | .sentinel =>
        afterRequest s p v d1 s.params.auxNakByte (s.transport.get p)
          [.protocolViolation (.auxBadReadLength (v.extractLsb' 20 5))]
      | .abort =>
        { s with
          aux := s.aux.set p
            { s.aux.get p with auxctl := BitVec.ofNat 32 (2 ^ 30 + replySizeOf s.params v d1 * 2 ^ 20) }
          response := okResponse [.protocolViolation (.auxBadReadLength (v.extractLsb' 20 5))] })

/-! ### Host calls and descriptors that spell nothing -/

/-- `init_transport` as a host step puts one port in its zero form, and doing it twice is doing it once (R232, R233,
R240). -/
def Obligations.HostInitZeroesOnePort : Prop :=
  ∀ s p,
    exec (.hostInit p) s = .next { s with
      transport := s.transport.set p ⟨.notSpecified, false, false, 0, ⟨.idle, 0, 0⟩, ⟨false, false⟩⟩
      response := okResponse [] } ∧
    (∀ t, exec (.hostInit p) s = .next t → exec (.hostInit p) t = .next t)

/-- `configure` refuses an EDID of a length other than 128 or 256 and a monitor with no EDID; otherwise it writes the
entry and the EDID length of one port and reinitialises that port (R238). -/
def Obligations.ConfigureChecksAndWrites : Prop :=
  ∀ s p mon dp edid,
    (((∃ bytes, edid = some bytes ∧ bytes.length ≠ 128 ∧ bytes.length ≠ 256) ∨ (mon = true ∧ edid = none)) →
      exec (.hostConfig p mon dp edid) s = .next { s with response := ⟨.refused .badConfig, none, []⟩ }) ∧
    (((∀ bytes, edid = some bytes → bytes.length = 128 ∨ bytes.length = 256) ∧ (mon = true → edid ≠ none)) →
      exec (.hostConfig p mon dp edid) s = .next { s with
        cfg := s.cfg.set p ⟨true, mon, dp, edid⟩
        edidLen := s.edidLen.set p ((edid.map List.length).getD 128)
        transport := s.transport.set p Transport.zero
        response := okResponse [] })

/-- `controller_reset` puts every transport in its zero form and every register at `REG_RESET`, and leaves the Display
Path Table and the EDID lengths alone (R43, R45, R239). That the registers take `REG_RESET` is the spec's own choice
(R44, D34), not its source's. -/
def Obligations.ControllerResetClears : Prop :=
  ∀ s, ∃ t, exec .hostReset s = .next t ∧
    (∀ r, t.gmbus.get r = s.params.regReset) ∧
    (∀ p r, (t.aux.get p).get r = s.params.regReset) ∧
    (∀ p, t.transport.get p = Transport.zero) ∧
    t = { s with gmbus := t.gmbus, aux := t.aux, transport := t.transport, response := okResponse [] }

/-- A descriptor that spells no operation is refused and changes nothing (R81, R258). -/
def Obligations.BadDescriptorsRefused : Prop :=
  ∀ s d, ∀ i ∈ [Instr.invalidAuxport d, .invalidHostport d, .invalid d],
    exec i s = .next { s with response := ⟨.refused .badDescriptor, none, []⟩ }

/-! ### The whole machine -/

/-- The invariant holds after reset, for every value of the parameters (R44, R280; that no port is configured then is the
model's choice: log 14). -/
def Obligations.InvariantAtReset : Prop :=
  ∀ params, StateInv (State.resetWith params)

/-- Every step keeps the invariant. -/
def Obligations.StepKeepsInvariant : Prop :=
  ∀ s t, StateInv s → step s = .next t → StateInv t

/-- An outcome other than Ok changes no state (R250). -/
def Obligations.NonOkOutcomeChangesNoState : Prop :=
  ∀ i s t, exec i s = .next t → t.response.outcome ≠ .ok → sameBut s t

/-- Only `configure` writes the Display Path Table and the EDID lengths; no guest access does, and no reset
(R29, R45, R264). -/
def Obligations.OnlyConfigureWritesTable : Prop :=
  ∀ i s t, exec i s = .next t → (∀ p mon dp edid, i ≠ .hostConfig p mon dp edid) →
    t.cfg = s.cfg ∧ t.edidLen = s.edidLen

/-- No step writes a parameter, and a step takes exactly one call from the stream (R12, R36, R124). -/
def Obligations.StepKeepsParameters : Prop :=
  ∀ s t, step s = .next t → t.params = s.params ∧ ∃ r, s.pending = r :: t.pending

/-- An AUX operation writes only the AUX block and the transport of the port it names (R130). -/
def Obligations.AuxWritesOnlyItsPort : Prop :=
  ∀ i p s t, auxPort i = some p → exec i s = .next t →
    t.gmbus = s.gmbus ∧ t.cfg = s.cfg ∧ t.edidLen = s.edidLen ∧
    ∀ q, q ≠ p → t.aux.get q = s.aux.get q ∧ t.transport.get q = s.transport.get q

/-- An AUX operation reads only what belongs to the port it names: from two states that agree there, it gives the same
response and the same AUX block and transport of that port (R130). -/
def Obligations.AuxReadsOnlyItsPort : Prop :=
  ∀ i p s₁ s₂ t₁ t₂, auxPort i = some p → s₁.params = s₂.params → s₁.aux.get p = s₂.aux.get p →
    s₁.cfg.get p = s₂.cfg.get p → s₁.edidLen.get p = s₂.edidLen.get p →
    s₁.transport.get p = s₂.transport.get p →
    exec i s₁ = .next t₁ → exec i s₂ = .next t₂ →
    t₁.response = t₂.response ∧ t₁.aux.get p = t₂.aux.get p ∧ t₁.transport.get p = t₂.transport.get p

/-- A GMBUS access, or a form of one, that does no controller reset leaves every AUX block and the transport of every
port but the active one as it was (R130). -/
def Obligations.GmbusWritesOnlyActivePort : Prop :=
  ∀ i s t, isGmbusAccess i = true → ¬ resetsController s i → exec i s = .next t →
    t.aux = s.aux ∧ ∀ q, s.activePort ≠ some q → t.transport.get q = s.transport.get q

/-- DATA changes only through a DATA read, or the register reset of the host (R26, R239). (A passthrough write at 0x0C
is no operation: a write there is the DATA write, R83.) -/
def Obligations.OnlyDataReadChangesData : Prop :=
  ∀ i s t, exec i s = .next t → (∀ w, i ≠ .grData w) → i ≠ .hostReset → (∀ w v, i ≠ .gwPass 0x0C w v) →
    t.gmbus.data = s.gmbus.data

/-- The block never sets ST.INT: a step after which INT is set found it set, unless it is the register reset of the
host (R25, R263). (A passthrough write at 0x08 is no operation: a write there is the STATUS write, R83.) -/
def Obligations.InterruptFlagNeverSet : Prop :=
  ∀ i s t, exec i s = .next t → i ≠ .hostReset → (∀ w v, i ≠ .gwPass 0x08 w v) →
    t.gmbus.status.getLsbD 12 = true →
    s.gmbus.status.getLsbD 12 = true
end

