-- ==== Sys2Proof/Laws/Bits.lean ====
section
/-! SUPPORT. Laws of the bit and byte helpers and of the STATUS computations. -/

namespace Sys2Proof.Machine

/-! ### Bits -/

theorem getLsbD_one_shl (i j : Nat) (hi : i < 32) : (1#32 <<< i).getLsbD j = decide (j = i) := by
  rw [BitVec.getLsbD_shiftLeft, BitVec.getLsbD_one]
  by_cases h : j = i
  · subst h; simp [hi]
  · by_cases h2 : j < i
    · simp [h2]; omega
    · have : ¬ (j - i = 0) := by omega
      simp [h, this]

/-- Setting bit `i` changes that bit alone. -/
theorem getLsbD_setBit (v : Word) (i j : Nat) (x : Bool) (hi : i < 32) :
    (setBit v i x).getLsbD j = if j = i then x else v.getLsbD j := by
  cases x
  · rw [setBit, if_neg (by decide), BitVec.getLsbD_and, BitVec.getLsbD_not, getLsbD_one_shl i j hi]
    by_cases h : j = i
    · subst h; simp
    · by_cases hj : j < 32
      · simp only [hj, h, decide_true, decide_false, Bool.not_false, Bool.and_true, if_false]
      · rw [BitVec.getLsbD_of_ge v j (by omega)]; simp
  · rw [setBit, if_pos rfl, BitVec.getLsbD_or, getLsbD_one_shl i j hi]
    by_cases h : j = i <;> simp [h]

theorem bit_setBit (v : Word) (i j : Nat) (x : Bool) (hi : i < 32) :
    bit (setBit v i x) j = if j = i then x else bit v j := getLsbD_setBit v i j x hi

/-- A decoded COMMAND value differs from the written one in SW_RDY alone. -/
theorem getLsbD_cmdStrip (v : Word) (j : Nat) : (cmdStrip v).getLsbD j = if j = 30 then false else v.getLsbD j :=
  getLsbD_setBit v 30 j false (by decide)

/-- A field of a word that does not reach SW_RDY is a field of the decoded value. -/
theorem extractLsb'_cmdStrip (v : Word) (start len : Nat) (h : start + len ≤ 30) :
    (cmdStrip v).extractLsb' start len = v.extractLsb' start len := by
  apply BitVec.eq_of_getLsbD_eq
  intro i hi
  have : start + i ≠ 30 := by omega
  rw [BitVec.getLsbD_extractLsb', BitVec.getLsbD_extractLsb', getLsbD_cmdStrip, if_neg this]

/-! ### STATUS -/

theorem getLsbD_statusAfterReset (a : Bool) (st : Word) (j : Nat) :
    (statusAfterReset a st).getLsbD j =
      if j = 10 then !a else if j = 14 then true else if j = 11 then true else if j = 9 then false
      else st.getLsbD j := by
  simp [statusAfterReset, getLsbD_setBit]

theorem getLsbD_statusAfterArm (st : Word) (j : Nat) :
    (statusAfterArm st).getLsbD j = if j = 11 then true else if j = 12 then false else st.getLsbD j := by
  simp [statusAfterArm, getLsbD_setBit]

theorem getLsbD_statusClearInt (st : Word) (j : Nat) :
    (statusClearInt st).getLsbD j = if j = 12 then false else st.getLsbD j := by
  simp [statusClearInt, getLsbD_setBit]

theorem getLsbD_statusSetActive (x : Bool) (st : Word) (j : Nat) :
    (statusSetActive x st).getLsbD j = if j = 9 then x else st.getLsbD j := by
  simp [statusSetActive, getLsbD_setBit]

theorem getLsbD_statusAfterRead (st : Word) (j : Nat) :
    (statusAfterRead st).getLsbD j = if j = 15 then true else st.getLsbD j := by
  unfold statusAfterRead
  split
  · split
    · next h h' => subst h'; exact h
    · rfl
  · simp [getLsbD_setBit]

theorem getLsbD_statusAfterWrite (v st : Word) (j : Nat) :
    (statusAfterWrite v st).getLsbD j = if j = 15 ∧ v.getLsbD 15 = true then false else st.getLsbD j := by
  unfold statusAfterWrite stInuse bit
  cases v.getLsbD 15
  · simp only [Bool.false_eq_true, and_false, if_false]
  · simp only [and_true, if_true, getLsbD_setBit _ _ _ _ (show 15 < 32 by decide)]

/-! ### Bytes -/

theorem getLsbD_byteOf (v : Word) (j i : Nat) : (byteOf v j).getLsbD i = (decide (i < 8) && v.getLsbD (8 * j + i)) := by
  simp [byteOf, BitVec.getLsbD_extractLsb']

theorem getLsbD_byteMask (j i : Nat) : (0xFF#32 <<< (8 * j)).getLsbD i =
    (decide (i < 32) && decide (8 * j ≤ i) && decide (i < 8 * j + 8)) := by
  rw [BitVec.getLsbD_shiftLeft]
  by_cases hi : i < 32
  · have hm : ∀ k < 32, (0xFF#32).getLsbD k = decide (k < 8) := by decide
    rw [hm _ (by omega)]
    by_cases h1 : i < 8 * j
    · simp [h1]
    · have : 8 * j ≤ i := by omega
      by_cases h2 : i < 8 * j + 8
      · have : i - 8 * j < 8 := by omega
        simp [*]
      · have : ¬ i - 8 * j < 8 := by omega
        simp [*]
  · simp [hi]

theorem getLsbD_setByte (v : Word) (j : Nat) (b : Byte) (i : Nat) (hj : j < 4) :
    (setByte v j b).getLsbD i = if 8 * j ≤ i ∧ i < 8 * j + 8 then b.getLsbD (i - 8 * j) else v.getLsbD i := by
  rw [setByte, BitVec.getLsbD_or, BitVec.getLsbD_and, BitVec.getLsbD_not, getLsbD_byteMask,
    BitVec.getLsbD_shiftLeft, BitVec.getLsbD_setWidth]
  by_cases hi : i < 32
  · by_cases h1 : i < 8 * j
    · have : ¬ 8 * j ≤ i := by omega
      simp only [hi, h1, this, decide_true, decide_false, Bool.and_false, Bool.false_and, Bool.not_false,
        Bool.and_true, Bool.not_true, Bool.or_false, false_and, if_false]
    · have c : 8 * j ≤ i := by omega
      by_cases h2 : i < 8 * j + 8
      · have : i - 8 * j < 32 := by omega
        simp only [hi, h1, h2, c, this, decide_true, decide_false, Bool.and_self, Bool.not_true, Bool.and_false,
          Bool.false_or, Bool.not_false, Bool.true_and, and_self, if_true]
      · have hb : b.getLsbD (i - 8 * j) = false := BitVec.getLsbD_of_ge _ _ (by omega)
        simp only [hi, h2, hb, decide_true, decide_false, Bool.and_false, Bool.not_false, Bool.and_true,
          Bool.or_false, and_false, if_false]
  · have h1 : v.getLsbD i = false := BitVec.getLsbD_of_ge _ _ (by omega)
    have : ¬ (8 * j ≤ i ∧ i < 8 * j + 8) := by omega
    simp only [hi, h1, this, decide_false, Bool.false_and, Bool.or_false, if_false]

/-- Replacing a byte of a word replaces that byte and no other. -/
theorem byteOf_setByte (v : Word) (j k : Nat) (b : Byte) (hj : j < 4) :
    byteOf (setByte v j b) k = if k = j then b else byteOf v k := by
  apply BitVec.eq_of_getLsbD_eq
  intro i hi
  rw [getLsbD_byteOf, getLsbD_setByte _ _ _ _ hj]
  by_cases h : k = j
  · subst h
    have : 8 * k ≤ 8 * k + i ∧ 8 * k + i < 8 * k + 8 := by omega
    simp [hi, this]
  · have : ¬ (8 * j ≤ 8 * k + i ∧ 8 * k + i < 8 * j + 8) := by omega
    simp only [this, if_false, h, getLsbD_byteOf]

/-- The bytes of a packed word. -/
theorem byteOf_packWord (b0 b1 b2 b3 : Byte) :
    byteOf (packWord b0 b1 b2 b3) 0 = b0 ∧ byteOf (packWord b0 b1 b2 b3) 1 = b1 ∧
    byteOf (packWord b0 b1 b2 b3) 2 = b2 ∧ byteOf (packWord b0 b1 b2 b3) 3 = b3 := by
  refine ⟨?_, ?_, ?_, ?_⟩ <;>
  · apply BitVec.eq_of_getLsbD_eq
    intro i hi
    simp only [getLsbD_byteOf, packWord, BitVec.getLsbD_append, hi, decide_true, Bool.true_and]
    repeat' split
    all_goals first | omega | (congr 1; omega)

/-! ### The value of a read -/

/-- A read value is the value reduced to `8w` bits. -/
theorem truncTo_eq (w : Nat) (x : BitVec 64) : truncTo w x = BitVec.ofNat 64 (x.toNat % 2 ^ (8 * w)) := by
  apply BitVec.eq_of_toNat_eq
  simp [truncTo, BitVec.toNat_setWidth]

/-! ### The register bank -/

@[simp] theorem GmbusRegs.get_set_self (g : GmbusRegs) (r : BankReg) (v : Word) : (g.set r v).get r = v := by
  cases r <;> rfl

theorem GmbusRegs.get_set_ne (g : GmbusRegs) {r q : BankReg} (v : Word) (h : q ≠ r) : (g.set r v).get q = g.get q := by
  cases r <;> cases q <;> first | rfl | exact absurd rfl h

theorem bankRegAt_inj {a b : Nat} {r : BankReg} (ha : bankRegAt a = some r) (hb : bankRegAt b = some r) :
    a / 4 = b / 4 := by
  have key : ∀ c, bankRegAt c = some r → c / 4 = r.offset / 4 := by
    intro c hc
    unfold bankRegAt at hc
    split at hc <;> cases hc <;> (rename_i h; exact h)
  rw [key a ha, key b hb]

/-- Writing one byte of the bank and reading one: the byte written, or the byte that was there. -/
theorem bankByte_setBankByte (g : GmbusRegs) (a c : Nat) (b : Byte) :
    bankByte (setBankByte g a b) c = if c = a then (bankByte g a).map (fun _ => b) else bankByte g c := by
  unfold setBankByte
  cases ha : bankRegAt a with
  | none =>
    by_cases h : c = a
    · subst h; simp [bankByte, ha]
    · simp [h]
  | some r =>
    cases hc : bankRegAt c with
    | none =>
      have : c ≠ a := by rintro rfl; rw [ha] at hc; cases hc
      simp [bankByte, hc, this]
    | some q =>
      by_cases hq : q = r
      · subst hq
        have h4 := bankRegAt_inj ha hc
        have hm : c % 4 = a % 4 ↔ c = a := by omega
        have h1 := byteOf_setByte (g.get q) (a % 4) (c % 4) b (Nat.mod_lt _ (by decide))
        simp only [bankByte, ha, hc, Option.map_some, GmbusRegs.get_set_self, h1, hm]
        split <;> rfl
      · have : c ≠ a := by rintro rfl; rw [ha] at hc; cases hc; exact hq rfl
        simp [bankByte, hc, this, GmbusRegs.get_set_ne g _ hq]

/-- A write through the byte view never makes a byte appear or vanish. -/
theorem bankByte_isSome_setBankByte (g : GmbusRegs) (a c : Nat) (b : Byte) :
    (bankByte (setBankByte g a b) c).isSome = (bankByte g c).isSome := by
  rw [bankByte_setBankByte]
  split
  · next h => subst h; simp
  · rfl

/-! ### AUX blocks -/

@[simp] theorem AuxBlock.get_set_self (x : AuxBlock) (r : AuxReg) (v : Word) : (x.set r v).get r = v := by
  cases r <;> rfl

theorem AuxBlock.get_set_ne (x : AuxBlock) {r q : AuxReg} (v : Word) (h : q ≠ r) : (x.set r v).get q = x.get q := by
  cases r <;> cases q <;> first | rfl | exact absurd rfl h

end Sys2Proof.Machine
end

