-- ==== Sys2Proof/Laws/State.lean ====
section
/-! SUPPORT. Per-port tables and field updates: one lemma for each field of each update, true by rfl. -/

namespace Sys2Proof

/-! ### Per-port tables -/

@[simp] theorem PortMap.get_set_self {α : Type} (m : PortMap α) (p : Port) (x : α) : (m.set p x).get p = x := by
  cases p <;> rfl

theorem PortMap.get_set_ne {α : Type} (m : PortMap α) {p q : Port} (x : α) (h : q ≠ p) :
    (m.set p x).get q = m.get q := by
  cases p <;> cases q <;> first | rfl | exact absurd rfl h

theorem PortMap.get_set {α : Type} (m : PortMap α) (p q : Port) (x : α) :
    (m.set p x).get q = if q = p then x else m.get q := by
  by_cases h : q = p
  · subst h; simp
  · simp [h, PortMap.get_set_ne m x h]

@[simp] theorem PortMap.get_fill {α : Type} (x : α) (p : Port) : (PortMap.fill x).get p = x := by
  cases p <;> rfl

@[simp] theorem PortMap.set_get_self {α : Type} (m : PortMap α) (p : Port) : m.set p (m.get p) = m := by
  cases p <;> rfl

@[simp] theorem PortMap.set_set {α : Type} (m : PortMap α) (p : Port) (x y : α) :
    (m.set p x).set p y = m.set p y := by
  cases p <;> rfl

theorem PortMap.ext_get {α : Type} {m n : PortMap α} (h : ∀ p, m.get p = n.get p) : m = n := by
  cases m; cases n
  have hA := h .A; have hB := h .B; have hC := h .C; have hD := h .D; have hE := h .E; have hF := h .F
  simp only [PortMap.get] at hA hB hC hD hE hF
  simp [hA, hB, hC, hD, hE, hF]

end Sys2Proof

namespace Sys2Proof.Machine

/-! ### setControl -/

@[simp] theorem State.setControl_params (s : State) (v : Word) : (s.setControl v).params = s.params := rfl

@[simp] theorem State.setControl_aux (s : State) (v : Word) : (s.setControl v).aux = s.aux := rfl

@[simp] theorem State.setControl_cfg (s : State) (v : Word) : (s.setControl v).cfg = s.cfg := rfl

@[simp] theorem State.setControl_edidLen (s : State) (v : Word) : (s.setControl v).edidLen = s.edidLen := rfl

@[simp] theorem State.setControl_transport (s : State) (v : Word) : (s.setControl v).transport = s.transport := rfl

@[simp] theorem State.setControl_response (s : State) (v : Word) : (s.setControl v).response = s.response := rfl

@[simp] theorem State.setControl_pending (s : State) (v : Word) : (s.setControl v).pending = s.pending := rfl

@[simp] theorem State.setControl_gmbus (s : State) (v : Word) : (s.setControl v).gmbus = { s.gmbus with control := v } := rfl

/-! ### setCommand -/

@[simp] theorem State.setCommand_params (s : State) (v : Word) : (s.setCommand v).params = s.params := rfl

@[simp] theorem State.setCommand_aux (s : State) (v : Word) : (s.setCommand v).aux = s.aux := rfl

@[simp] theorem State.setCommand_cfg (s : State) (v : Word) : (s.setCommand v).cfg = s.cfg := rfl

@[simp] theorem State.setCommand_edidLen (s : State) (v : Word) : (s.setCommand v).edidLen = s.edidLen := rfl

@[simp] theorem State.setCommand_transport (s : State) (v : Word) : (s.setCommand v).transport = s.transport := rfl

@[simp] theorem State.setCommand_response (s : State) (v : Word) : (s.setCommand v).response = s.response := rfl

@[simp] theorem State.setCommand_pending (s : State) (v : Word) : (s.setCommand v).pending = s.pending := rfl

@[simp] theorem State.setCommand_gmbus (s : State) (v : Word) : (s.setCommand v).gmbus = { s.gmbus with command := v } := rfl

/-! ### setStatus -/

@[simp] theorem State.setStatus_params (s : State) (v : Word) : (s.setStatus v).params = s.params := rfl

@[simp] theorem State.setStatus_aux (s : State) (v : Word) : (s.setStatus v).aux = s.aux := rfl

@[simp] theorem State.setStatus_cfg (s : State) (v : Word) : (s.setStatus v).cfg = s.cfg := rfl

@[simp] theorem State.setStatus_edidLen (s : State) (v : Word) : (s.setStatus v).edidLen = s.edidLen := rfl

@[simp] theorem State.setStatus_transport (s : State) (v : Word) : (s.setStatus v).transport = s.transport := rfl

@[simp] theorem State.setStatus_response (s : State) (v : Word) : (s.setStatus v).response = s.response := rfl

@[simp] theorem State.setStatus_pending (s : State) (v : Word) : (s.setStatus v).pending = s.pending := rfl

@[simp] theorem State.setStatus_gmbus (s : State) (v : Word) : (s.setStatus v).gmbus = { s.gmbus with status := v } := rfl

/-! ### setData -/

@[simp] theorem State.setData_params (s : State) (v : Word) : (s.setData v).params = s.params := rfl

@[simp] theorem State.setData_aux (s : State) (v : Word) : (s.setData v).aux = s.aux := rfl

@[simp] theorem State.setData_cfg (s : State) (v : Word) : (s.setData v).cfg = s.cfg := rfl

@[simp] theorem State.setData_edidLen (s : State) (v : Word) : (s.setData v).edidLen = s.edidLen := rfl

@[simp] theorem State.setData_transport (s : State) (v : Word) : (s.setData v).transport = s.transport := rfl

@[simp] theorem State.setData_response (s : State) (v : Word) : (s.setData v).response = s.response := rfl

@[simp] theorem State.setData_pending (s : State) (v : Word) : (s.setData v).pending = s.pending := rfl

@[simp] theorem State.setData_gmbus (s : State) (v : Word) : (s.setData v).gmbus = { s.gmbus with data := v } := rfl

/-! ### setGmbus -/

@[simp] theorem State.setGmbus_params (s : State) (g : GmbusRegs) : (s.setGmbus g).params = s.params := rfl

@[simp] theorem State.setGmbus_aux (s : State) (g : GmbusRegs) : (s.setGmbus g).aux = s.aux := rfl

@[simp] theorem State.setGmbus_cfg (s : State) (g : GmbusRegs) : (s.setGmbus g).cfg = s.cfg := rfl

@[simp] theorem State.setGmbus_edidLen (s : State) (g : GmbusRegs) : (s.setGmbus g).edidLen = s.edidLen := rfl

@[simp] theorem State.setGmbus_transport (s : State) (g : GmbusRegs) : (s.setGmbus g).transport = s.transport := rfl

@[simp] theorem State.setGmbus_response (s : State) (g : GmbusRegs) : (s.setGmbus g).response = s.response := rfl

@[simp] theorem State.setGmbus_pending (s : State) (g : GmbusRegs) : (s.setGmbus g).pending = s.pending := rfl

@[simp] theorem State.setGmbus_gmbus (s : State) (g : GmbusRegs) : (s.setGmbus g).gmbus = g := rfl

/-! ### setAux -/

@[simp] theorem State.setAux_params (s : State) (p : Port) (x : AuxBlock) : (s.setAux p x).params = s.params := rfl

@[simp] theorem State.setAux_aux (s : State) (p : Port) (x : AuxBlock) : (s.setAux p x).aux = s.aux.set p x := rfl

@[simp] theorem State.setAux_cfg (s : State) (p : Port) (x : AuxBlock) : (s.setAux p x).cfg = s.cfg := rfl

@[simp] theorem State.setAux_edidLen (s : State) (p : Port) (x : AuxBlock) : (s.setAux p x).edidLen = s.edidLen := rfl

@[simp] theorem State.setAux_transport (s : State) (p : Port) (x : AuxBlock) : (s.setAux p x).transport = s.transport := rfl

@[simp] theorem State.setAux_response (s : State) (p : Port) (x : AuxBlock) : (s.setAux p x).response = s.response := rfl

@[simp] theorem State.setAux_pending (s : State) (p : Port) (x : AuxBlock) : (s.setAux p x).pending = s.pending := rfl

@[simp] theorem State.setAux_gmbus (s : State) (p : Port) (x : AuxBlock) : (s.setAux p x).gmbus = s.gmbus := rfl

/-! ### setAuxReg -/

@[simp] theorem State.setAuxReg_params (s : State) (p : Port) (r : AuxReg) (v : Word) : (s.setAuxReg p r v).params = s.params := rfl

@[simp] theorem State.setAuxReg_aux (s : State) (p : Port) (r : AuxReg) (v : Word) : (s.setAuxReg p r v).aux = s.aux.set p ((s.aux.get p).set r v) := rfl

@[simp] theorem State.setAuxReg_cfg (s : State) (p : Port) (r : AuxReg) (v : Word) : (s.setAuxReg p r v).cfg = s.cfg := rfl

@[simp] theorem State.setAuxReg_edidLen (s : State) (p : Port) (r : AuxReg) (v : Word) : (s.setAuxReg p r v).edidLen = s.edidLen := rfl

@[simp] theorem State.setAuxReg_transport (s : State) (p : Port) (r : AuxReg) (v : Word) : (s.setAuxReg p r v).transport = s.transport := rfl

@[simp] theorem State.setAuxReg_response (s : State) (p : Port) (r : AuxReg) (v : Word) : (s.setAuxReg p r v).response = s.response := rfl

@[simp] theorem State.setAuxReg_pending (s : State) (p : Port) (r : AuxReg) (v : Word) : (s.setAuxReg p r v).pending = s.pending := rfl

@[simp] theorem State.setAuxReg_gmbus (s : State) (p : Port) (r : AuxReg) (v : Word) : (s.setAuxReg p r v).gmbus = s.gmbus := rfl

/-! ### setTransport -/

@[simp] theorem State.setTransport_params (s : State) (p : Port) (t : Transport) : (s.setTransport p t).params = s.params := rfl

@[simp] theorem State.setTransport_aux (s : State) (p : Port) (t : Transport) : (s.setTransport p t).aux = s.aux := rfl

@[simp] theorem State.setTransport_cfg (s : State) (p : Port) (t : Transport) : (s.setTransport p t).cfg = s.cfg := rfl

@[simp] theorem State.setTransport_edidLen (s : State) (p : Port) (t : Transport) : (s.setTransport p t).edidLen = s.edidLen := rfl

@[simp] theorem State.setTransport_transport (s : State) (p : Port) (t : Transport) : (s.setTransport p t).transport = s.transport.set p t := rfl

@[simp] theorem State.setTransport_response (s : State) (p : Port) (t : Transport) : (s.setTransport p t).response = s.response := rfl

@[simp] theorem State.setTransport_pending (s : State) (p : Port) (t : Transport) : (s.setTransport p t).pending = s.pending := rfl

@[simp] theorem State.setTransport_gmbus (s : State) (p : Port) (t : Transport) : (s.setTransport p t).gmbus = s.gmbus := rfl

/-! ### setCfg -/

@[simp] theorem State.setCfg_params (s : State) (p : Port) (c : PathConfig) : (s.setCfg p c).params = s.params := rfl

@[simp] theorem State.setCfg_aux (s : State) (p : Port) (c : PathConfig) : (s.setCfg p c).aux = s.aux := rfl

@[simp] theorem State.setCfg_cfg (s : State) (p : Port) (c : PathConfig) : (s.setCfg p c).cfg = s.cfg.set p c := rfl

@[simp] theorem State.setCfg_edidLen (s : State) (p : Port) (c : PathConfig) : (s.setCfg p c).edidLen = s.edidLen := rfl

@[simp] theorem State.setCfg_transport (s : State) (p : Port) (c : PathConfig) : (s.setCfg p c).transport = s.transport := rfl

@[simp] theorem State.setCfg_response (s : State) (p : Port) (c : PathConfig) : (s.setCfg p c).response = s.response := rfl

@[simp] theorem State.setCfg_pending (s : State) (p : Port) (c : PathConfig) : (s.setCfg p c).pending = s.pending := rfl

@[simp] theorem State.setCfg_gmbus (s : State) (p : Port) (c : PathConfig) : (s.setCfg p c).gmbus = s.gmbus := rfl

/-! ### setEdidLen -/

@[simp] theorem State.setEdidLen_params (s : State) (p : Port) (n : Nat) : (s.setEdidLen p n).params = s.params := rfl

@[simp] theorem State.setEdidLen_aux (s : State) (p : Port) (n : Nat) : (s.setEdidLen p n).aux = s.aux := rfl

@[simp] theorem State.setEdidLen_cfg (s : State) (p : Port) (n : Nat) : (s.setEdidLen p n).cfg = s.cfg := rfl

@[simp] theorem State.setEdidLen_edidLen (s : State) (p : Port) (n : Nat) : (s.setEdidLen p n).edidLen = s.edidLen.set p n := rfl

@[simp] theorem State.setEdidLen_transport (s : State) (p : Port) (n : Nat) : (s.setEdidLen p n).transport = s.transport := rfl

@[simp] theorem State.setEdidLen_response (s : State) (p : Port) (n : Nat) : (s.setEdidLen p n).response = s.response := rfl

@[simp] theorem State.setEdidLen_pending (s : State) (p : Port) (n : Nat) : (s.setEdidLen p n).pending = s.pending := rfl

@[simp] theorem State.setEdidLen_gmbus (s : State) (p : Port) (n : Nat) : (s.setEdidLen p n).gmbus = s.gmbus := rfl

/-! ### setResponse -/

@[simp] theorem State.setResponse_params (s : State) (r : Response) : (s.setResponse r).params = s.params := rfl

@[simp] theorem State.setResponse_aux (s : State) (r : Response) : (s.setResponse r).aux = s.aux := rfl

@[simp] theorem State.setResponse_cfg (s : State) (r : Response) : (s.setResponse r).cfg = s.cfg := rfl

@[simp] theorem State.setResponse_edidLen (s : State) (r : Response) : (s.setResponse r).edidLen = s.edidLen := rfl

@[simp] theorem State.setResponse_transport (s : State) (r : Response) : (s.setResponse r).transport = s.transport := rfl

@[simp] theorem State.setResponse_response (s : State) (r : Response) : (s.setResponse r).response = r := rfl

@[simp] theorem State.setResponse_pending (s : State) (r : Response) : (s.setResponse r).pending = s.pending := rfl

@[simp] theorem State.setResponse_gmbus (s : State) (r : Response) : (s.setResponse r).gmbus = s.gmbus := rfl

/-! ### setPending -/

@[simp] theorem State.setPending_params (s : State) (q : List Request) : (s.setPending q).params = s.params := rfl

@[simp] theorem State.setPending_aux (s : State) (q : List Request) : (s.setPending q).aux = s.aux := rfl

@[simp] theorem State.setPending_cfg (s : State) (q : List Request) : (s.setPending q).cfg = s.cfg := rfl

@[simp] theorem State.setPending_edidLen (s : State) (q : List Request) : (s.setPending q).edidLen = s.edidLen := rfl

@[simp] theorem State.setPending_transport (s : State) (q : List Request) : (s.setPending q).transport = s.transport := rfl

@[simp] theorem State.setPending_response (s : State) (q : List Request) : (s.setPending q).response = s.response := rfl

@[simp] theorem State.setPending_pending (s : State) (q : List Request) : (s.setPending q).pending = q := rfl

@[simp] theorem State.setPending_gmbus (s : State) (q : List Request) : (s.setPending q).gmbus = s.gmbus := rfl

/-! ### beginStep -/

@[simp] theorem State.beginStep_params (s : State) : (s.beginStep).params = s.params := rfl

@[simp] theorem State.beginStep_aux (s : State) : (s.beginStep).aux = s.aux := rfl

@[simp] theorem State.beginStep_cfg (s : State) : (s.beginStep).cfg = s.cfg := rfl

@[simp] theorem State.beginStep_edidLen (s : State) : (s.beginStep).edidLen = s.edidLen := rfl

@[simp] theorem State.beginStep_transport (s : State) : (s.beginStep).transport = s.transport := rfl

@[simp] theorem State.beginStep_response (s : State) : (s.beginStep).response = .empty := rfl

@[simp] theorem State.beginStep_pending (s : State) : (s.beginStep).pending = s.pending := rfl

@[simp] theorem State.beginStep_gmbus (s : State) : (s.beginStep).gmbus = s.gmbus := rfl

/-! ### log -/

@[simp] theorem State.log_params (s : State) (ev : Event) : (s.log ev).params = s.params := rfl

@[simp] theorem State.log_aux (s : State) (ev : Event) : (s.log ev).aux = s.aux := rfl

@[simp] theorem State.log_cfg (s : State) (ev : Event) : (s.log ev).cfg = s.cfg := rfl

@[simp] theorem State.log_edidLen (s : State) (ev : Event) : (s.log ev).edidLen = s.edidLen := rfl

@[simp] theorem State.log_transport (s : State) (ev : Event) : (s.log ev).transport = s.transport := rfl

@[simp] theorem State.log_response (s : State) (ev : Event) : (s.log ev).response = { s.response with events := s.response.events ++ [ev] } := rfl

@[simp] theorem State.log_pending (s : State) (ev : Event) : (s.log ev).pending = s.pending := rfl

@[simp] theorem State.log_gmbus (s : State) (ev : Event) : (s.log ev).gmbus = s.gmbus := rfl

/-! ### returnValue -/

@[simp] theorem State.returnValue_params (s : State) (w : Nat) (x : BitVec 64) : (s.returnValue w x).params = s.params := rfl

@[simp] theorem State.returnValue_aux (s : State) (w : Nat) (x : BitVec 64) : (s.returnValue w x).aux = s.aux := rfl

@[simp] theorem State.returnValue_cfg (s : State) (w : Nat) (x : BitVec 64) : (s.returnValue w x).cfg = s.cfg := rfl

@[simp] theorem State.returnValue_edidLen (s : State) (w : Nat) (x : BitVec 64) : (s.returnValue w x).edidLen = s.edidLen := rfl

@[simp] theorem State.returnValue_transport (s : State) (w : Nat) (x : BitVec 64) : (s.returnValue w x).transport = s.transport := rfl

@[simp] theorem State.returnValue_response (s : State) (w : Nat) (x : BitVec 64) : (s.returnValue w x).response = { s.response with value := some (truncTo w x) } := rfl

@[simp] theorem State.returnValue_pending (s : State) (w : Nat) (x : BitVec 64) : (s.returnValue w x).pending = s.pending := rfl

@[simp] theorem State.returnValue_gmbus (s : State) (w : Nat) (x : BitVec 64) : (s.returnValue w x).gmbus = s.gmbus := rfl

/-! ### raise -/

@[simp] theorem State.raise_params (s : State) (o : StepOutcome) : (s.raise o).params = s.params := rfl

@[simp] theorem State.raise_aux (s : State) (o : StepOutcome) : (s.raise o).aux = s.aux := rfl

@[simp] theorem State.raise_cfg (s : State) (o : StepOutcome) : (s.raise o).cfg = s.cfg := rfl

@[simp] theorem State.raise_edidLen (s : State) (o : StepOutcome) : (s.raise o).edidLen = s.edidLen := rfl

@[simp] theorem State.raise_transport (s : State) (o : StepOutcome) : (s.raise o).transport = s.transport := rfl

@[simp] theorem State.raise_response (s : State) (o : StepOutcome) : (s.raise o).response = { s.response with outcome := o } := rfl

@[simp] theorem State.raise_pending (s : State) (o : StepOutcome) : (s.raise o).pending = s.pending := rfl

@[simp] theorem State.raise_gmbus (s : State) (o : StepOutcome) : (s.raise o).gmbus = s.gmbus := rfl

/-! ### updTransport -/

@[simp] theorem State.updTransport_params (s : State) (p : Port) (f : Transport → Transport) : (s.updTransport p f).params = s.params := rfl

@[simp] theorem State.updTransport_aux (s : State) (p : Port) (f : Transport → Transport) : (s.updTransport p f).aux = s.aux := rfl

@[simp] theorem State.updTransport_cfg (s : State) (p : Port) (f : Transport → Transport) : (s.updTransport p f).cfg = s.cfg := rfl

@[simp] theorem State.updTransport_edidLen (s : State) (p : Port) (f : Transport → Transport) : (s.updTransport p f).edidLen = s.edidLen := rfl

@[simp] theorem State.updTransport_transport (s : State) (p : Port) (f : Transport → Transport) : (s.updTransport p f).transport = s.transport.set p (f (s.transport.get p)) := rfl

@[simp] theorem State.updTransport_response (s : State) (p : Port) (f : Transport → Transport) : (s.updTransport p f).response = s.response := rfl

@[simp] theorem State.updTransport_pending (s : State) (p : Port) (f : Transport → Transport) : (s.updTransport p f).pending = s.pending := rfl

@[simp] theorem State.updTransport_gmbus (s : State) (p : Port) (f : Transport → Transport) : (s.updTransport p f).gmbus = s.gmbus := rfl

/-! ### initTransport -/

@[simp] theorem State.initTransport_params (s : State) (p : Port) : (s.initTransport p).params = s.params := rfl

@[simp] theorem State.initTransport_aux (s : State) (p : Port) : (s.initTransport p).aux = s.aux := rfl

@[simp] theorem State.initTransport_cfg (s : State) (p : Port) : (s.initTransport p).cfg = s.cfg := rfl

@[simp] theorem State.initTransport_edidLen (s : State) (p : Port) : (s.initTransport p).edidLen = s.edidLen := rfl

@[simp] theorem State.initTransport_transport (s : State) (p : Port) : (s.initTransport p).transport = s.transport.set p .zero := rfl

@[simp] theorem State.initTransport_response (s : State) (p : Port) : (s.initTransport p).response = s.response := rfl

@[simp] theorem State.initTransport_pending (s : State) (p : Port) : (s.initTransport p).pending = s.pending := rfl

@[simp] theorem State.initTransport_gmbus (s : State) (p : Port) : (s.initTransport p).gmbus = s.gmbus := rfl

/-! ### initAll -/

@[simp] theorem State.initAll_params (s : State) : (s.initAll).params = s.params := rfl

@[simp] theorem State.initAll_aux (s : State) : (s.initAll).aux = s.aux := rfl

@[simp] theorem State.initAll_cfg (s : State) : (s.initAll).cfg = s.cfg := rfl

@[simp] theorem State.initAll_edidLen (s : State) : (s.initAll).edidLen = s.edidLen := rfl

@[simp] theorem State.initAll_transport (s : State) : (s.initAll).transport = .fill .zero := rfl

@[simp] theorem State.initAll_response (s : State) : (s.initAll).response = s.response := rfl

@[simp] theorem State.initAll_pending (s : State) : (s.initAll).pending = s.pending := rfl

@[simp] theorem State.initAll_gmbus (s : State) : (s.initAll).gmbus = s.gmbus := rfl

/-! ### Two updates of one field -/

@[simp] theorem State.beginStep_idem (s : State) : s.beginStep.beginStep = s.beginStep := rfl

@[simp] theorem State.activePort_setStatus (s : State) (v : Word) : (s.setStatus v).activePort = s.activePort := rfl

@[simp] theorem State.activePort_setCommand (s : State) (v : Word) : (s.setCommand v).activePort = s.activePort := rfl

@[simp] theorem State.activePort_setData (s : State) (v : Word) : (s.setData v).activePort = s.activePort := rfl

@[simp] theorem State.activePort_beginStep (s : State) : s.beginStep.activePort = s.activePort := rfl

@[simp] theorem State.activePort_log (s : State) (ev : Event) : (s.log ev).activePort = s.activePort := rfl

@[simp] theorem State.activePort_updTransport (s : State) (p : Port) (f : Transport → Transport) :
    (s.updTransport p f).activePort = s.activePort := rfl

@[simp] theorem State.activePort_setPending (s : State) (q : List Request) :
    (s.setPending q).activePort = s.activePort := rfl

/-- With an active port, the active port's transport is updated and nothing else. -/
theorem State.updActive_of_some {s : State} {p : Port} (h : s.activePort = some p) (f : Transport → Transport) :
    s.updActive f = s.updTransport p f := by
  simp [State.updActive, h]

/-- With no active port, nothing is updated. -/
theorem State.updActive_of_none {s : State} (h : s.activePort = none) (f : Transport → Transport) :
    s.updActive f = s := by
  simp [State.updActive, h]

end Sys2Proof.Machine
end

