-- ==== Sys2Proof/Laws/Ops.lean ====
section
/-! SUPPORT. One law for each shared operation: what it does, said once. -/

namespace Sys2Proof.Machine

open Sys2Proof.Config

/-! ### Ends of steps -/

/-- A step that ends with outcome `o` changes the response alone. -/
theorem endWith_eq (o : StepOutcome) (s : State) : endWith o s = .next { s with response := ⟨o, none, []⟩ } := rfl

/-- A GMBUS access either is turned away, or has the effect of its rule. -/
theorem gmbusAccess_cases {dir : Direction} {off w : Nat} {f : State → State} {s t : State}
    (h : gmbusAccess dir off w f s = .next t) :
    (∃ o, admission dir off w = some o ∧ t = { s with response := ⟨o, none, []⟩ }) ∨
    (admission dir off w = none ∧ t = f s.beginStep) := by
  unfold gmbusAccess at h
  split at h
  · next o ho => rw [endWith_eq] at h; cases h; exact .inl ⟨o, ho, rfl⟩
  · next ho => cases h; exact .inr ⟨ho, rfl⟩

theorem gmbusAccess_admitted {dir : Direction} {off w : Nat} (f : State → State) (s : State)
    (h : admission dir off w = none) : gmbusAccess dir off w f s = .next (f s.beginStep) := by
  simp [gmbusAccess, h]

theorem gmbusAccess_refused {dir : Direction} {off w : Nat} {o : StepOutcome} (f : State → State) (s : State)
    (h : admission dir off w = some o) :
    gmbusAccess dir off w f s = .next { s with response := ⟨o, none, []⟩ } := by
  simp [gmbusAccess, h, endWith_eq]

/-- The malformed check in the words of R67. -/
theorem malformed_eq_false {off w : Nat} :
    malformed off w = false ↔ (w = 1 ∨ w = 2 ∨ w = 4 ∨ w = 8) ∧ off % w = 0 := by
  simp [malformed, legalWidth]
  intro _
  tauto

/-- The window check in the words of R68. -/
theorem insideWindow_eq_true {off w : Nat} :
    insideWindow off w = true ↔ off + w ≤ 0x14 ∨ (0x20 ≤ off ∧ off + w ≤ 0x24) := by
  simp [insideWindow]

/-- What an admitted access satisfies. -/
theorem admission_eq_none {dir : Direction} {off w : Nat} :
    admission dir off w = none ↔
      malformed off w = false ∧ insideWindow off w = true ∧ admittedWidth dir off w = true := by
  unfold admission
  cases malformed off w <;> cases insideWindow off w <;> cases admittedWidth dir off w <;> simp

/-! ### The byte view of the bank -/

/-- `MemRead` of `n` bytes is below `2^(8n)`. -/
theorem memRead_lt (g : GmbusRegs) (off n : Nat) (hn : n ≤ 8) : (memRead g off n).toNat < 2 ^ (8 * n) := by
  induction n generalizing off with
  | zero => simp [memRead]
  | succ n ih =>
    have h := ih (off + 1) (by omega)
    rw [memRead, BitVec.toNat_or, BitVec.toNat_shiftLeft]
    apply Nat.or_lt_two_pow
    · refine lt_of_le_of_lt (Nat.mod_le _ _) ?_
      rw [Nat.shiftLeft_eq, show 8 * (n + 1) = 8 * n + 8 by ring, pow_add]
      exact Nat.mul_lt_mul_of_pos_right h (by decide)
    · have h1 : (((bankByte g off).getD 0).setWidth 64).toNat < 2 ^ 8 := by
        rw [BitVec.toNat_setWidth]
        exact lt_of_le_of_lt (Nat.mod_le _ _) ((bankByte g off).getD 0).isLt
      exact lt_of_lt_of_le h1 (Nat.pow_le_pow_right (by decide) (by omega))

/-- Byte `j` of `MemRead` is the byte of the bank at `off + j`. -/
theorem memRead_byte (g : GmbusRegs) (off n j : Nat) (hj : j < n) (hn : n ≤ 8) :
    (memRead g off n).extractLsb' (8 * j) 8 = (bankByte g (off + j)).getD 0 := by
  induction n generalizing off j with
  | zero => omega
  | succ n ih =>
    apply BitVec.eq_of_getLsbD_eq
    intro i hi
    rw [BitVec.getLsbD_extractLsb', memRead, BitVec.getLsbD_or, BitVec.getLsbD_shiftLeft, BitVec.getLsbD_setWidth]
    cases j with
    | zero =>
      have h1 : i < 64 := by omega
      simp [hi, h1]
    | succ j =>
      have hb : ((bankByte g off).getD 0).getLsbD (8 * (j + 1) + i) = false := BitVec.getLsbD_of_ge _ _ (by omega)
      have e : 8 * (j + 1) + i - 8 = 8 * j + i := by omega
      have := congrArg (fun b => b.getLsbD i) (ih (off + 1) j (by omega) (by omega))
      simp only [BitVec.getLsbD_extractLsb', hi, decide_true, Bool.true_and] at this
      have l1 : 8 * (j + 1) + i < 64 := by omega
      have l2 : ¬ 8 * (j + 1) + i < 8 := by omega
      rw [hb, e, this, show off + 1 + j = off + (j + 1) by ring]
      simp [hi, l1, l2]

/-- `MemWrite` stores byte j of the value at `off + j` and leaves every other byte. -/
theorem bankByte_memWrite (g : GmbusRegs) (off n : Nat) (v : BitVec 64) (a : Nat) :
    bankByte (memWrite g off n v) a =
      if off ≤ a ∧ a < off + n then (bankByte g a).map (fun _ => v.extractLsb' (8 * (a - off)) 8)
      else bankByte g a := by
  induction n generalizing g off v with
  | zero => have : ¬ (off ≤ a ∧ a < off + 0) := by omega
            rw [memWrite, if_neg this]
  | succ n ih =>
    rw [memWrite, ih, bankByte_setBankByte]
    by_cases h0 : a = off
    · subst h0
      have h1 : ¬ (a + 1 ≤ a ∧ a < a + 1 + n) := by omega
      have h2 : a ≤ a ∧ a < a + (n + 1) := by omega
      simp only [h1, h2, if_false, if_true, and_self]
      congr 1; funext _
      apply BitVec.eq_of_getLsbD_eq; intro i hi
      simp [hi]
    · by_cases h1 : off + 1 ≤ a ∧ a < off + 1 + n
      · have h2 : off ≤ a ∧ a < off + (n + 1) := by omega
        rw [if_pos h1, if_pos h2, if_neg h0]
        congr 1; funext _
        apply BitVec.eq_of_getLsbD_eq; intro i hi
        have e : 8 + (8 * (a - (off + 1)) + i) = 8 * (a - off) + i := by omega
        simp [hi, e]
      · have h2 : ¬ (off ≤ a ∧ a < off + (n + 1)) := by omega
        rw [if_neg h1, if_neg h2, if_neg h0]

/-- A byte of the bank at an address inside it exists. -/
theorem bankByte_isSome {off w j : Nat} (g : GmbusRegs) (h : insideWindow off w = true) (hj : j < w) :
    (bankByte g (off + j)).isSome = true := by
  rw [insideWindow_eq_true] at h
  have hd : (off + j) / 4 = 0 ∨ (off + j) / 4 = 1 ∨ (off + j) / 4 = 2 ∨ (off + j) / 4 = 3 ∨ (off + j) / 4 = 4 ∨
      (off + j) / 4 = 8 := by omega
  unfold bankByte bankRegAt
  rcases hd with h | h | h | h | h | h <;> rw [h] <;> rfl

/-! ### Transport lifecycle -/

theorem controllerResetCore_some (p : Port) (s : State) :
    controllerResetCore (some p) s = { s with
      gmbus := { s.gmbus with status := statusAfterReset (gmbusAdmit s p) s.gmbus.status }
      transport := (PortMap.fill Transport.zero).set p (selectedTransport (gmbusAdmit s p)) } := rfl

theorem controllerResetCore_none (s : State) :
    controllerResetCore none s = { s with
      gmbus := { s.gmbus with status := statusAfterReset false s.gmbus.status }
      transport := .fill .zero } := rfl

/-! ### COMMAND decode -/

/-- What the fields of a decoded COMMAND write do, before its cycle type acts: STATUS, the active port's transport and
the events change, nothing else. -/
theorem commandFields_eq (v : Word) (s : State) :
    commandFields v s = { s with
      gmbus := { s.gmbus with status := if cmdClr v then statusAfterArm s.gmbus.status else s.gmbus.status }
      transport := match s.activePort with
        | some p => s.transport.set p { s.transport.get p with
            slaveSelected := (s.transport.get p).slaveSelected || cmdAddr (cmdStrip v) == s.params.edidAddr
            readCursor := if cmdIndexed (cmdStrip v) then (cmdIndex (cmdStrip v)).toNat
              else (s.transport.get p).readCursor
            gmbus := { (s.transport.get p).gmbus with
              totalByteCount := cmdCount (cmdStrip v), cycleType := cmdCycle (cmdStrip v) } }
        | none => s.transport
      response := { s.response with events := s.response.events ++
        ((if cmdAddr (cmdStrip v) ≠ s.params.edidAddr ∧ cmdAddr (cmdStrip v) ≠ 0 then
          [.unsupportedSlave (cmdAddr (cmdStrip v))] else []) ++
        (if s.activePort = none then [.noActivePort] else [])) } } := by
  have armed : ∀ b : Bool, (if b then s.setStatus (statusAfterArm s.gmbus.status) else s) =
      s.setStatus (if b then statusAfterArm s.gmbus.status else s.gmbus.status) := by
    intro b; cases b <;> rfl
  have active : ∀ st, (s.setStatus st).activePort = s.activePort := fun _ => rfl
  simp only [commandFields, armed, State.updActive, active]
  generalize (if cmdClr v then statusAfterArm s.gmbus.status else s.gmbus.status) = st
  generalize cmdAddr (cmdStrip v) = a
  generalize hed : s.params.edidAddr = ed
  by_cases h : a = ed
  · cases s.activePort <;>
      simp [h, State.setStatus, State.log, State.setResponse, State.updTransport, State.setTransport]
  · have hb : (a == ed) = false := beq_eq_false_iff_ne.2 h
    simp only [hb, Bool.or_false]
    clear hb
    by_cases h0 : a = 0#7 <;> cases s.activePort <;>
      simp_all [State.setStatus, State.log, State.setResponse, State.updTransport, State.setTransport]

/-! ### The EDID cursor -/

/-- `next_byte` either logs the first failing precondition and returns 0x00, or returns the byte at the cursor and
advances it. -/
theorem nextByte_cases (p : Port) (s : State) :
    (∃ k, nextByteViolation s p = some k ∧ nextByte p s = (0, s.log (.protocolViolation k))) ∨
    (nextByteViolation s p = none ∧ nextByte p s =
      (edidByte s p (s.transport.get p).readCursor,
        s.updTransport p fun t => { t with readCursor := t.readCursor + 1 })) := by
  unfold nextByte
  cases h : nextByteViolation s p with
  | some k => exact .inl ⟨k, rfl, rfl⟩
  | none => exact .inr ⟨rfl, rfl⟩

/-- What a successful `next_byte` has checked. -/
theorem nextByteViolation_eq_none {s : State} {p : Port} :
    nextByteViolation s p = none ↔
      (s.transport.get p).mode ≠ .notSpecified ∧ (s.transport.get p).slaveSelected = true ∧
      (s.transport.get p).edidAvailable = true ∧ (s.cfg.get p).hasMonitor = true ∧
      (s.transport.get p).readCursor < s.edidLen.get p := by
  unfold nextByteViolation
  constructor
  · intro h
    simp only at h
    repeat' split at h
    all_goals simp_all
  · rintro ⟨h1, h2, h3, h4, h5⟩
    have : ¬ s.edidLen.get p ≤ (s.transport.get p).readCursor := by omega
    simp [h1, h2, h3, h4, this]

/-- The parts of the state that the EDID cursor never touches. -/
structure CursorFrame (p : Port) (s t : State) : Prop where
  params  : t.params = s.params
  gmbus   : t.gmbus = s.gmbus
  aux     : t.aux = s.aux
  cfg     : t.cfg = s.cfg
  edidLen : t.edidLen = s.edidLen
  pending : t.pending = s.pending
  outcome : t.response.outcome = s.response.outcome
  value   : t.response.value = s.response.value
  path    : ∃ n, t.transport = s.transport.set p { s.transport.get p with readCursor := n }

theorem CursorFrame.refl (p : Port) (s : State) : CursorFrame p s s :=
  ⟨rfl, rfl, rfl, rfl, rfl, rfl, rfl, rfl, (s.transport.get p).readCursor, (PortMap.set_get_self _ _).symm⟩

theorem CursorFrame.trans {p : Port} {s t u : State} (h : CursorFrame p s t) (k : CursorFrame p t u) :
    CursorFrame p s u := by
  obtain ⟨n, hn⟩ := h.path
  obtain ⟨m, hm⟩ := k.path
  exact ⟨k.params.trans h.params, k.gmbus.trans h.gmbus, k.aux.trans h.aux, k.cfg.trans h.cfg,
    k.edidLen.trans h.edidLen, k.pending.trans h.pending, k.outcome.trans h.outcome, k.value.trans h.value, m,
    by rw [hm, hn]; simp⟩

theorem nextByte_frame (p : Port) (s : State) : CursorFrame p s (nextByte p s).2 := by
  rcases nextByte_cases p s with ⟨k, _, h⟩ | ⟨_, h⟩ <;> rw [h]
  · exact ⟨rfl, rfl, rfl, rfl, rfl, rfl, rfl, rfl, (s.transport.get p).readCursor, (PortMap.set_get_self _ _).symm⟩
  · exact ⟨rfl, rfl, rfl, rfl, rfl, rfl, rfl, rfl, _, rfl⟩

theorem pullBytes_frame (p : Port) (k : Nat) (s : State) : CursorFrame p s (pullBytes p k s).2 := by
  induction k generalizing s with
  | zero => exact CursorFrame.refl p s
  | succ k ih => exact (nextByte_frame p s).trans (ih _)

/-- A pull of `k` bytes gives `k` bytes. -/
theorem pullBytes_length (p : Port) (k : Nat) (s : State) : (pullBytes p k s).1.length = k := by
  induction k generalizing s with
  | zero => rfl
  | succ k ih => simp [pullBytes, ih]

/-- The bytes of DATA after a batched read. -/
theorem byteOf_packData (upper : DataPartialUpper) (old : Word) (bs : List Byte) (j : Nat) (hj : j < 4) :
    byteOf (packData upper old bs) j =
      bs.getD j (match upper with | .keep => byteOf old j | .zero => 0) := by
  have h := byteOf_packWord (packData.slot upper old bs 0) (packData.slot upper old bs 1)
    (packData.slot upper old bs 2) (packData.slot upper old bs 3)
  have : j = 0 ∨ j = 1 ∨ j = 2 ∨ j = 3 := by omega
  rcases this with rfl | rfl | rfl | rfl
  · exact h.1
  · exact h.2.1
  · exact h.2.2.1
  · exact h.2.2.2

end Sys2Proof.Machine
end

