-- ==== Sys2Proof/Laws/Meanings.lean ====
section
/-! SUPPORT. What `exec` is for each GMBUS access and each COMMAND form, over the shared operations: the equations the
proofs rewrite with instead of unfolding a meaning. -/

namespace Sys2Proof.Machine

theorem exec_grStatus (w : Nat) (s : State) :
    exec (.grStatus w) s = gmbusAccess .read 0x08 w (statusRead w) s := rfl

theorem exec_grData (w : Nat) (s : State) :
    exec (.grData w) s = gmbusAccess .read 0x0C w (dataRead w) s := rfl

theorem exec_grPass (off w : Nat) (s : State) :
    exec (.grPass off w) s = gmbusAccess .read off w (fun s => s.returnValue w (memRead s.gmbus off w)) s := rfl

theorem exec_gwControl (w : Nat) (v : BitVec 64) (s : State) :
    exec (.gwControl w v) s = gmbusAccess .write 0x00 w (controlWrite (v.setWidth 32)) s := rfl

theorem exec_gwCommand (w : Nat) (v : BitVec 64) (s : State) :
    exec (.gwCommand w v) s = match admission .write 0x04 w with
      | some o => endWith o s
      | none => execCommandForm (v.setWidth 32) s := rfl

theorem exec_gwStatus (w : Nat) (v : BitVec 64) (s : State) :
    exec (.gwStatus w v) s =
      gmbusAccess .write 0x08 w (fun s => s.setStatus (statusAfterWrite (v.setWidth 32) s.gmbus.status)) s := rfl

theorem exec_gwData (w : Nat) (v : BitVec 64) (s : State) :
    exec (.gwData w v) s =
      gmbusAccess .write 0x0C w (fun s => (s.log .dataWriteRejected).raise .rejectedDataWrite) s := rfl

theorem exec_gwPass (off w : Nat) (v : BitVec 64) (s : State) :
    exec (.gwPass off w v) s =
      gmbusAccess .write off w (fun s => s.setGmbus (memWrite s.gmbus off w v)) s := rfl

theorem exec_cmdNocycle (v : Word) (s : State) : exec (.cmdNocycle v) s = commandWrite v (fun s => s) s := rfl

theorem exec_cmdStop (v : Word) (s : State) : exec (.cmdStop v) s = commandWrite v stopCycle s := rfl

theorem exec_cmdNidxWait (v : Word) (s : State) : exec (.cmdNidxWait v) s = commandWrite v dataCycle s := rfl

theorem exec_cmdIdxWait (v : Word) (s : State) : exec (.cmdIdxWait v) s = commandWrite v dataCycle s := rfl

theorem exec_cmdNidxStop (v : Word) (s : State) : exec (.cmdNidxStop v) s = commandWrite v dataCycle s := rfl

theorem exec_cmdIdxStop (v : Word) (s : State) : exec (.cmdIdxStop v) s = commandWrite v dataCycle s := rfl

theorem exec_cmdRsvd2 (v : Word) (s : State) : exec (.cmdRsvd2 v) s = commandWrite v (reservedCycle 2) s := rfl

theorem exec_cmdRsvd6 (v : Word) (s : State) : exec (.cmdRsvd6 v) s = commandWrite v (reservedCycle 6) s := rfl

/-- A step with a call pending runs the operation the call routes to, on the state without it. -/
theorem step_cons {s : State} {r : Request} {rest : List Request} (h : s.pending = r :: rest) :
    step s = exec (route r) (s.setPending rest) := by
  simp [step, fetch, h]

/-! ### AUX requests -/

theorem exec_awCtl (p : Port) (v : Word) (s : State) : exec (.awCtl p v) s = execAuxClass p v s := rfl

/-- The 16-bit address an AUX header is compared with, by default (R8, R97). -/
theorem auxEdidAddr_defaults (g : Config.Generation) : (Config.Params.defaults g).auxEdidAddr = 0x0050 := rfl

theorem exec_auxreqClear (p : Port) (v d1 : Word) (s : State) :
    exec (.auxreqClear p v d1) s = .next s.beginStep := rfl

theorem exec_auxreqStop (p : Port) (v d1 : Word) (s : State) :
    exec (.auxreqStop p v d1) s = auxTriggered p v d1 (fun s => auxPayload p 0x00 (s.initTransport p)) s := rfl

theorem exec_auxreqAddr0 (p : Port) (v d1 : Word) (s : State) :
    exec (.auxreqAddr0 p v d1) s =
      auxTriggered p v d1 (fun s => auxPayload p 0x00 ((startFlags p s).initTransport p)) s := rfl

theorem exec_auxreqStartEdid (p : Port) (v d1 : Word) (s : State) :
    exec (.auxreqStartEdid p v d1) s = auxTriggered p v d1 (fun s => auxPayload p 0x00 (startEdid p s)) s := rfl

theorem exec_auxreqStartOther (p : Port) (v d1 : Word) (s : State) :
    exec (.auxreqStartOther p v d1) s = auxTriggered p v d1
      (fun s => auxPayload p 0x00 ((startFlags p s).log (.unsupportedAuxAddress (auxAddr d1)))) s := rfl

theorem exec_auxreqSeek (p : Port) (v d1 : Word) (s : State) :
    exec (.auxreqSeek p v d1) s = auxTriggered p v d1 (fun s => auxPayload p 0x00 (seek p (auxLen v) s)) s := rfl

theorem exec_auxreqWriteOther (p : Port) (v d1 : Word) (s : State) :
    exec (.auxreqWriteOther p v d1) s =
      auxTriggered p v d1 (fun s => auxPayload p 0x00 (s.log (.unsupportedAuxAddress (auxAddr d1)))) s := rfl

theorem exec_auxreqRead (p : Port) (v d1 : Word) (s : State) :
    exec (.auxreqRead p v d1) s =
      auxTriggered p v d1 (fun s => auxPayload p (readByte p s).1 (readByte p s).2) s := rfl

theorem exec_auxreqReadBadlen (p : Port) (v d1 : Word) (s : State) :
    exec (.auxreqReadBadlen p v d1) s = auxTriggered p v d1
      (fun s =>
        let s₁ := s.log (.protocolViolation (.auxBadReadLength (auxLen v)))
        match s.params.auxBadlenPolicy with
        | .abort => s₁
        | .sentinel => auxPayload p s.params.auxNakByte s₁) s := rfl

/-! ### Admitted accesses -/

theorem grStatus_next {w : Nat} (s : State) (h : admission .read 0x08 w = none) :
    exec (.grStatus w) s = .next (statusRead w s.beginStep) := gmbusAccess_admitted _ s h

theorem grData_next {w : Nat} (s : State) (h : admission .read 0x0C w = none) :
    exec (.grData w) s = .next (dataRead w s.beginStep) := gmbusAccess_admitted _ s h

theorem grPass_next {off w : Nat} (s : State) (h : admission .read off w = none) :
    exec (.grPass off w) s = .next (s.beginStep.returnValue w (memRead s.gmbus off w)) :=
  gmbusAccess_admitted (fun s => s.returnValue w (memRead s.gmbus off w)) s h

theorem gwControl_next {w : Nat} (v : BitVec 64) (s : State) (h : admission .write 0x00 w = none) :
    exec (.gwControl w v) s = .next (controlWrite (v.setWidth 32) s.beginStep) := gmbusAccess_admitted _ s h

theorem gwCommand_next {w : Nat} (v : BitVec 64) (s : State) (h : admission .write 0x04 w = none) :
    exec (.gwCommand w v) s = execCommandForm (v.setWidth 32) s := by
  rw [exec_gwCommand, h]

theorem gwStatus_next {w : Nat} (v : BitVec 64) (s : State) (h : admission .write 0x08 w = none) :
    exec (.gwStatus w v) s = .next (s.beginStep.setStatus (statusAfterWrite (v.setWidth 32) s.gmbus.status)) :=
  gmbusAccess_admitted (fun s => s.setStatus (statusAfterWrite (v.setWidth 32) s.gmbus.status)) s h

theorem gwData_next {w : Nat} (v : BitVec 64) (s : State) (h : admission .write 0x0C w = none) :
    exec (.gwData w v) s = .next { s with response := ⟨.rejectedDataWrite, none, [.dataWriteRejected]⟩ } :=
  gmbusAccess_admitted (fun s => (s.log .dataWriteRejected).raise .rejectedDataWrite) s h

theorem gwPass_next {off w : Nat} (v : BitVec 64) (s : State) (h : admission .write off w = none) :
    exec (.gwPass off w v) s = .next (s.beginStep.setGmbus (memWrite s.gmbus off w v)) :=
  gmbusAccess_admitted (fun s => s.setGmbus (memWrite s.gmbus off w v)) s h

end Sys2Proof.Machine
end

