-- ==== Sys2Proof/Laws/PerInstr.lean ====
section
/-! SUPPORT. Families of facts about the instructions as syntax, one lemma for each constructor. -/

namespace Sys2Proof.Laws.EncodedFormat

/-- The formats of the opcode table (R105). -/
inductive Format where
  | access | cmd | auxreq
  deriving DecidableEq, Repr

/-- The format of a code word. -/
def formatOf : CodeWord → Format
  | .access _ _ => .access
  | .command _ => .cmd
  | .auxRequest _ _ => .auxreq

/-- The format that the opcode table gives an instruction's row (R105). -/
def rowFormat : Instr → Format
  | .invalidAuxport _ => .access
  | .invalidHostport _ => .access
  | .grStatus _ => .access
  | .grData _ => .access
  | .grPass _ _ => .access
  | .gwControl _ _ => .access
  | .gwCommand _ _ => .access
  | .gwStatus _ _ => .access
  | .gwData _ _ => .access
  | .gwPass _ _ _ => .access
  | .awCtl _ _ => .access
  | .awData1 _ _ => .access
  | .awData2 _ _ => .access
  | .awData3 _ _ => .access
  | .awData4 _ _ => .access
  | .awData5 _ _ => .access
  | .awBadoff _ _ _ => .access
  | .ar _ _ => .access
  | .hostInit _ => .access
  | .hostConfig _ _ _ _ => .access
  | .hostReset => .access
  | .invalid _ => .access
  | .cmdSwclrHeld _ => .cmd
  | .cmdSwclrDone _ => .cmd
  | .cmdNocycle _ => .cmd
  | .cmdStop _ => .cmd
  | .cmdNidxWait _ => .cmd
  | .cmdIdxWait _ => .cmd
  | .cmdNidxStop _ => .cmd
  | .cmdIdxStop _ => .cmd
  | .cmdRsvd2 _ => .cmd
  | .cmdRsvd6 _ => .cmd
  | .auxreqClear _ _ _ => .auxreq
  | .auxreqStop _ _ _ => .auxreq
  | .auxreqAddr0 _ _ _ => .auxreq
  | .auxreqStartEdid _ _ _ => .auxreq
  | .auxreqStartOther _ _ _ => .auxreq
  | .auxreqSeek _ _ _ => .auxreq
  | .auxreqWriteOther _ _ _ => .auxreq
  | .auxreqRead _ _ _ => .auxreq
  | .auxreqReadBadlen _ _ _ => .auxreq

/-- An instruction is encoded in the format of its row. -/
def Statement (i : Instr) : Prop := formatOf (encode i) = rowFormat i

theorem invalidAuxport (d : Word) : Statement (.invalidAuxport d) := rfl
theorem invalidHostport (d : Word) : Statement (.invalidHostport d) := rfl
theorem grStatus (w : Nat) : Statement (.grStatus w) := rfl
theorem grData (w : Nat) : Statement (.grData w) := rfl
theorem grPass (off : Nat) (w : Nat) : Statement (.grPass off w) := rfl
theorem gwControl (w : Nat) (v : BitVec 64) : Statement (.gwControl w v) := rfl
theorem gwCommand (w : Nat) (v : BitVec 64) : Statement (.gwCommand w v) := rfl
theorem gwStatus (w : Nat) (v : BitVec 64) : Statement (.gwStatus w v) := rfl
theorem gwData (w : Nat) (v : BitVec 64) : Statement (.gwData w v) := rfl
theorem gwPass (off : Nat) (w : Nat) (v : BitVec 64) : Statement (.gwPass off w v) := rfl
theorem awCtl (p : Port) (v : Word) : Statement (.awCtl p v) := rfl
theorem awData1 (p : Port) (v : Word) : Statement (.awData1 p v) := rfl
theorem awData2 (p : Port) (v : Word) : Statement (.awData2 p v) := rfl
theorem awData3 (p : Port) (v : Word) : Statement (.awData3 p v) := rfl
theorem awData4 (p : Port) (v : Word) : Statement (.awData4 p v) := rfl
theorem awData5 (p : Port) (v : Word) : Statement (.awData5 p v) := rfl
theorem awBadoff (p : Port) (off : Byte) (v : Word) : Statement (.awBadoff p off v) := rfl
theorem ar (p : Port) (off : Byte) : Statement (.ar p off) := rfl
theorem hostInit (p : Port) : Statement (.hostInit p) := rfl
theorem hostConfig (p : Port) (mon : Bool) (dp : Bool) (edid : Option (List Byte)) : Statement (.hostConfig p mon dp edid) := rfl
theorem hostReset : Statement .hostReset := rfl
theorem invalid (d : Word) : Statement (.invalid d) := rfl
theorem cmdSwclrHeld (v : Word) : Statement (.cmdSwclrHeld v) := rfl
theorem cmdSwclrDone (v : Word) : Statement (.cmdSwclrDone v) := rfl
theorem cmdNocycle (v : Word) : Statement (.cmdNocycle v) := rfl
theorem cmdStop (v : Word) : Statement (.cmdStop v) := rfl
theorem cmdNidxWait (v : Word) : Statement (.cmdNidxWait v) := rfl
theorem cmdIdxWait (v : Word) : Statement (.cmdIdxWait v) := rfl
theorem cmdNidxStop (v : Word) : Statement (.cmdNidxStop v) := rfl
theorem cmdIdxStop (v : Word) : Statement (.cmdIdxStop v) := rfl
theorem cmdRsvd2 (v : Word) : Statement (.cmdRsvd2 v) := rfl
theorem cmdRsvd6 (v : Word) : Statement (.cmdRsvd6 v) := rfl
theorem auxreqClear (p : Port) (v : Word) (d1 : Word) : Statement (.auxreqClear p v d1) := rfl
theorem auxreqStop (p : Port) (v : Word) (d1 : Word) : Statement (.auxreqStop p v d1) := rfl
theorem auxreqAddr0 (p : Port) (v : Word) (d1 : Word) : Statement (.auxreqAddr0 p v d1) := rfl
theorem auxreqStartEdid (p : Port) (v : Word) (d1 : Word) : Statement (.auxreqStartEdid p v d1) := rfl
theorem auxreqStartOther (p : Port) (v : Word) (d1 : Word) : Statement (.auxreqStartOther p v d1) := rfl
theorem auxreqSeek (p : Port) (v : Word) (d1 : Word) : Statement (.auxreqSeek p v d1) := rfl
theorem auxreqWriteOther (p : Port) (v : Word) (d1 : Word) : Statement (.auxreqWriteOther p v d1) := rfl
theorem auxreqRead (p : Port) (v : Word) (d1 : Word) : Statement (.auxreqRead p v d1) := rfl
theorem auxreqReadBadlen (p : Port) (v : Word) (d1 : Word) : Statement (.auxreqReadBadlen p v d1) := rfl

end Sys2Proof.Laws.EncodedFormat
end

