-- ==== Sys2Proof/Tests/Slice0.lean ====
section
/-! SUPPORT. Tests. Expected values come from spec/95_test_vectors.md and from the bit layouts of R81, R97, R99 and
R105, never from the model. Then the witnesses: for each statement with hypotheses, a concrete state and operands that
meet them. -/

namespace Sys2Proof.Tests

open Sys2Proof Sys2Proof.Machine Sys2Proof.Config

/-! ### Fixtures (95, section 0) -/

/-- `E`: 128 bytes, 00 FF FF FF FF FF FF 00, then `E[i] = i`. -/
def edidE : List Byte :=
  [0x00, 0xFF, 0xFF, 0xFF, 0xFF, 0xFF, 0xFF, 0x00] ++ (List.range 120).map fun i => BitVec.ofNat 8 (i + 8)

theorem edidE_length : edidE.length = 128 := by simp [edidE]

/-- `SG`: B has an HDMI monitor, C a DisplayPort one. -/
def sg : State :=
  { State.reset with
    cfg := ((PortMap.fill PathConfig.unconfigured).set .B ⟨true, true, false, some edidE⟩).set .C
      ⟨true, true, true, some edidE⟩ }

/-- `SG5`: SG after `gw.4 CONTROL, 5`. -/
def sg5 : State :=
  { sg with
    gmbus := { sg.gmbus with control := 5, status := 0x4800 }
    transport := (PortMap.fill Transport.zero).set .B ⟨.gmbus, false, true, 0, ⟨.idle, 0, 0⟩, ⟨false, false⟩⟩ }

/-- SG5 inside a non-indexed Stop-flavoured read of `n` bytes with the cursor at `c`. -/
def reading (c n : Nat) : State :=
  { sg5 with
    gmbus := { sg5.gmbus with command := 0x0A0000A1, status := 0x4A00, data := 0xFFFFFF00 }
    transport := (PortMap.fill Transport.zero).set .B
      ⟨.gmbus, true, true, c, ⟨.data, 5, BitVec.ofNat 16 n⟩, ⟨false, false⟩⟩ }

/-- `SA` with port B started over AUX, the cursor at `c`: B has a DisplayPort monitor. -/
def started (c : Nat) : State :=
  { State.reset with
    cfg := (PortMap.fill PathConfig.unconfigured).set .B ⟨true, true, true, some edidE⟩
    aux := (PortMap.fill (AuxBlock.filled 0)).set .B ⟨0x40100000, 0, 0, 0, 0, 0⟩
    transport := (PortMap.fill Transport.zero).set .B ⟨.auxChannel, true, true, c, ⟨.idle, 0, 0⟩, ⟨true, true⟩⟩ }

/-- The next state of an instruction, or the state itself where there is none. -/
def after (i : Instr) (s : State) : State :=
  match exec i s with
  | .next t => t
  | _ => s

/-! ### WellFormed: each check refuses an ill-formed term -/

theorem test_illformed_gmbus :
    (Instr.grStatus 3).wellFormed = false ∧ (Instr.grData 16).wellFormed = false ∧
    (Instr.grPass 0x100 1).wellFormed = false ∧ (Instr.grPass 0x10 0).wellFormed = false ∧
    (Instr.grPass 0x08 4).wellFormed = false ∧ (Instr.grPass 0x0C 4).wellFormed = false ∧
    (Instr.gwControl 0 5).wellFormed = false ∧ (Instr.gwCommand 5 5).wellFormed = false ∧
    (Instr.gwStatus 6 5).wellFormed = false ∧ (Instr.gwData 7 5).wellFormed = false ∧
    (Instr.gwPass 0x00 4 5).wellFormed = false ∧ (Instr.gwPass 0x04 4 5).wellFormed = false ∧
    (Instr.gwPass 0x08 4 5).wellFormed = false ∧ (Instr.gwPass 0x0C 4 5).wellFormed = false ∧
    (Instr.gwPass 0x100 4 5).wellFormed = false ∧ (Instr.gwPass 0x10 3 5).wellFormed = false := by decide

theorem test_illformed_descriptors :
    (Instr.awBadoff .A 0x14 0).wellFormed = false ∧
    (Instr.invalidAuxport 0x74000010).wellFormed = false ∧ (Instr.invalidAuxport 0x98000000).wellFormed = false ∧
    (Instr.invalidHostport 0x94000000).wellFormed = false ∧ (Instr.invalidHostport 0x98020000).wellFormed = false ∧
    (Instr.invalid 0x0200000C).wellFormed = false ∧ (Instr.invalid 0x78000110).wellFormed = false ∧
    (Instr.invalid 0x98010100).wellFormed = false ∧ (Instr.invalid 0x80020000).wellFormed = false := by decide

theorem test_illformed_command :
    (Instr.cmdSwclrHeld 0).wellFormed = false ∧ (Instr.cmdSwclrDone 0x80000000).wellFormed = false ∧
    (Instr.cmdNocycle 0x02000000).wellFormed = false ∧ (Instr.cmdStop 0).wellFormed = false ∧
    (Instr.cmdNidxWait 0x0A000000).wellFormed = false ∧ (Instr.cmdIdxWait 0x02000000).wellFormed = false ∧
    (Instr.cmdNidxStop 0x02000000).wellFormed = false ∧ (Instr.cmdIdxStop 0x0A000000).wellFormed = false ∧
    (Instr.cmdRsvd2 0x0C000000).wellFormed = false ∧ (Instr.cmdRsvd6 0x04000000).wellFormed = false := by decide

theorem test_illformed_aux :
    (Instr.auxreqClear .A 0x80000000 0).wellFormed = false ∧
    (Instr.auxreqStop .A 0x80300000 0x40000000).wellFormed = false ∧
    (Instr.auxreqStop .A 0x80400000 0).wellFormed = false ∧
    (Instr.auxreqAddr0 .A 0x80300000 0x40005000).wellFormed = false ∧
    (Instr.auxreqStartEdid .A 0x80300000 0x40000000).wellFormed = false ∧
    (Instr.auxreqStartOther .A 0x80300000 0x40005000).wellFormed = false ∧
    (Instr.auxreqStartOther .A 0x80300000 0x40000000).wellFormed = false ∧
    (Instr.auxreqSeek .A 0x80300000 0x40005000).wellFormed = false ∧
    (Instr.auxreqSeek .A 0x80500000 0x50005000).wellFormed = false ∧
    (Instr.auxreqWriteOther .A 0x80500000 0x40005000).wellFormed = false ∧
    (Instr.auxreqRead .A 0x80500000 0x50005000).wellFormed = false ∧
    (Instr.auxreqRead .A 0x00400000 0x50005000).wellFormed = false ∧
    (Instr.auxreqReadBadlen .A 0x80400000 0x50005000).wellFormed = false := by decide

/-! ### Decoding: every row, by words written out from R81, R97, R99 and the keys of R105 -/

/-- GMBUS reads: IF 0, DIR 0, WL in bits 25:24, OFF in bits 7:0. -/
theorem test_decode_gmbus_reads :
    decodeTableWord 32 0x02000008 = some (.grStatus 4) ∧ decodeTableWord 32 0x0200000C = some (.grData 4) ∧
    decodeTableWord 32 0x0000000C = some (.grData 1) ∧ decodeTableWord 32 0x00000004 = some (.grPass 0x04 1) ∧
    decodeTableWord 32 0x01000005 = some (.grPass 0x05 2) ∧ decodeTableWord 32 0x03000000 = some (.grPass 0x00 8) := by
  decide

/-- GMBUS writes: DIR 1. -/
theorem test_decode_gmbus_writes :
    decodeTableWord 32 0x22000000 = some (.gwControl 4 0) ∧ decodeTableWord 32 0x22000004 = some (.gwCommand 4 0) ∧
    decodeTableWord 32 0x22000008 = some (.gwStatus 4 0) ∧ decodeTableWord 32 0x2100000C = some (.gwData 2 0) ∧
    decodeTableWord 32 0x20000010 = some (.gwPass 0x10 1 0) := by decide

/-- AUX: IF 1, PORT in bits 28:26. -/
theorem test_decode_aux_accesses :
    decodeTableWord 32 0x64000010 = some (.awCtl .B 0) ∧ decodeTableWord 32 0x6C000014 = some (.awData1 .D 0) ∧
    decodeTableWord 32 0x68000018 = some (.awData2 .C 0) ∧ decodeTableWord 32 0x7400001C = some (.awData3 .F 0) ∧
    decodeTableWord 32 0x60000020 = some (.awData4 .A 0) ∧ decodeTableWord 32 0x64000024 = some (.awData5 .B 0) ∧
    decodeTableWord 32 0x64000028 = some (.awBadoff .B 0x28 0) ∧ decodeTableWord 32 0x44000014 = some (.ar .B 0x14) ∧
    decodeTableWord 32 0x50000010 = some (.ar .E 0x10) := by decide

/-- HOST: IF 2, HOP in bits 23:16; and the descriptors that spell nothing. -/
theorem test_decode_host_and_invalid :
    decodeTableWord 32 0x88000000 = some (.hostInit .C) ∧
    decodeTableWord 32 0x84010000 = some (.hostConfig .B false false none) ∧
    decodeTableWord 32 0x80020000 = some .hostReset ∧
    decodeTableWord 32 0x78000010 = some (.invalidAuxport 0x78000010) ∧
    decodeTableWord 32 0x98010000 = some (.invalidHostport 0x98010000) ∧
    decodeTableWord 32 0x80030000 = some (.invalid 0x80030000) ∧
    decodeTableWord 32 0xC0000000 = some (.invalid 0xC0000000) ∧
    decodeTableWord 32 0x00000108 = some (.invalid 0x00000108) := by decide

/-- CMD keys: bit 32 is the latched bit 31, then the written value. -/
theorem test_decode_command_keys :
    decodeTableWord 40 0x180000000 = some (.cmdSwclrHeld 0x80000000) ∧
    decodeTableWord 40 0x10A0800A1 = some (.cmdSwclrDone 0x0A0800A1) ∧
    decodeTableWord 40 0x0001000A1 = some (.cmdNocycle 0x001000A1) ∧
    decodeTableWord 40 0x048000000 = some (.cmdStop 0x48000000) ∧
    decodeTableWord 40 0x0421000A1 = some (.cmdNidxWait 0x421000A1) ∧
    decodeTableWord 40 0x0061020A1 = some (.cmdIdxWait 0x061020A1) ∧
    decodeTableWord 40 0x04A0800A1 = some (.cmdNidxStop 0x4A0800A1) ∧
    decodeTableWord 40 0x08E1020A1 = some (.cmdIdxStop 0x8E1020A1) ∧
    decodeTableWord 40 0x0041020A1 = some (.cmdRsvd2 0x041020A1) ∧
    decodeTableWord 40 0x00C1020A1 = some (.cmdRsvd6 0x0C1020A1) := by decide

/-- AUXREQ keys: the AUXCTL value above DATA1. -/
theorem test_decode_aux_keys :
    decodeTableWord 64 0x0030000010005000 = some (.auxreqClear .A 0x00300000 0x10005000) ∧
    decodeTableWord 64 0x8030000010005000 = some (.auxreqStop .A 0x80300000 0x10005000) ∧
    decodeTableWord 64 0x8030000040000000 = some (.auxreqAddr0 .A 0x80300000 0x40000000) ∧
    decodeTableWord 64 0x8030000040005000 = some (.auxreqStartEdid .A 0x80300000 0x40005000) ∧
    decodeTableWord 64 0x8030000040003700 = some (.auxreqStartOther .A 0x80300000 0x40003700) ∧
    decodeTableWord 64 0x8040000040005000 = some (.auxreqSeek .A 0x80400000 0x40005000) ∧
    decodeTableWord 64 0x8050000040003700 = some (.auxreqWriteOther .A 0x80500000 0x40003700) ∧
    decodeTableWord 64 0x8040000050005000 = some (.auxreqRead .A 0x80400000 0x50005000) ∧
    decodeTableWord 64 0x8020000010005000 = some (.auxreqReadBadlen .A 0x80200000 0x10005000) := by decide

/-- Words that are of no format, or have a bit above their format's key. -/
theorem test_decode_rejects :
    decodeTableWord 32 0x100000000 = none ∧ decodeTableWord 40 0x200000000 = none ∧ decodeTableWord 72 0 = none := by
  decide

/-- The operands beside a descriptor reach the instruction. -/
theorem test_decode_operands :
    decodeAccess 0x22000004 ⟨0x4A0800A1, false, false, none⟩ = .gwCommand 4 0x4A0800A1 ∧
    decodeAccess 0x64000014 ⟨0x40005000, false, false, none⟩ = .awData1 .B 0x40005000 ∧
    decodeAccess 0x84010000 ⟨0, true, false, some [1]⟩ = .hostConfig .B true false (some [1]) := by decide

/-- The composed words that 95 writes out: L1.3 (N = 8), P2 step 2, the starts and the seek of L1.5 and L1.9. -/
theorem test_pseudo_words :
    gmbusCmdWord 5 8 0 0x50 true = 0x4A0800A1 ∧ gmbusCmdWord 3 20 16 0x50 true = 0x461410A1 ∧
    pseudoAuxStartW .B = [.auxWrite .B 0x14 0x40005000, .auxWrite .B 0x10 0x80300000] ∧
    pseudoAuxStartR .B = [.auxWrite .B 0x14 0x50005000, .auxWrite .B 0x10 0x80300000] ∧
    pseudoAuxStop .B = [.auxWrite .B 0x14 0x10005000, .auxWrite .B 0x10 0x80300000] ∧
    (pseudoAuxSeek .B 0x08)[1]? = some (.auxWrite .B 0x18 0x08000000) := by decide

/-- `s` with another `EDID_ADDR` (R8). -/
def addressed (a : BitVec 7) (s : State) : State := { s with params := { s.params with edidAddr := a } }

/-- `EDID_ADDR` is a parameter (R8): with 0x51 a COMMAND write to 0x51 selects and one to 0x50 is unsupported (R150),
and an AUX START claims the port at 0x51 alone (R193). -/
theorem test_edidAddr :
    ((after (.gwCommand 4 0x0A1000A3) (addressed 0x51 sg5)).transport.get .B).slaveSelected = true ∧
    (after (.gwCommand 4 0x0A1000A1) (addressed 0x51 sg5)).response.events = [.unsupportedSlave 0x50] ∧
    ((after (.awCtl .B 0x80300000)
      (after (.awData1 .B 0x40005100) (addressed 0x51 sg))).transport.get .B).mode = .auxChannel ∧
    (after (.awCtl .B 0x80300000)
      (after (.awData1 .B 0x40005000) (addressed 0x51 sg))).response.events = [.unsupportedAuxAddress 0x50] := by decide

/-! ### One step each (the section of 95_test_vectors.md in the comment) -/

/-- L2.2. -/
theorem test_gwControl :
    (after (.gwControl 4 0xFFFFFFFD) sg).gmbus = ⟨0xFFFFFFFD, 0, 0x4800, 0, 0, 0⟩ ∧
    (after (.gwControl 4 5) sg).transport.get .B = ⟨.gmbus, false, true, 0, ⟨.idle, 0, 0⟩, ⟨false, false⟩⟩ ∧
    (after (.gwControl 4 4) sg).gmbus.status = 0x4C00 ∧
    (after (.gwControl 2 5) sg).response.outcome = .refused .specialWidth := by decide

/-- L2.2. -/
theorem test_gwControl_unresolved :
    (after (.gwControl 4 7) sg).response.events = [.unresolvedPort 7] ∧
    (after (.gwControl 4 0) sg5).gmbus.control = 5 := by decide

/-- L2.3. -/
theorem test_command_forms :
    (after (.gwCommand 4 0x421000A1) sg5).gmbus.command = 0x021000A1 ∧
    (after (.cmdNidxWait 0x421000A1) sg5).gmbus.status = 0x4A00 ∧
    (after (.cmdNocycle 0x001000A1) sg5).transport.get .B =
      ⟨.gmbus, true, true, 0, ⟨.idle, 0, 16⟩, ⟨false, false⟩⟩ ∧
    (after (.cmdIdxWait 0x061020A1) sg5).transport.get .B =
      ⟨.gmbus, true, true, 32, ⟨.data, 3, 16⟩, ⟨false, false⟩⟩ ∧
    (after (.cmdNidxStop 0x0A1000A3) sg5).response.events = [.unsupportedSlave 0x51] ∧
    (after (.cmdIdxStop 0x0E1020A1) sg5).transport.get .B =
      ⟨.gmbus, true, true, 32, ⟨.data, 7, 16⟩, ⟨false, false⟩⟩ := by decide

/-- L2.3. -/
theorem test_command_reserved_and_stop :
    (after (.cmdRsvd2 0x041020A1) sg5).transport.get .B =
      ⟨.gmbus, true, true, 32, ⟨.idle, 2, 16⟩, ⟨false, false⟩⟩ ∧
    (after (.cmdRsvd6 0x0C1020A1) sg5).response.events = [.protocolViolation (.reservedCycle 6)] ∧
    (after (.cmdStop 0x08100000) sg5).transport.get .B =
      ⟨.gmbus, false, true, 0, ⟨.idle, 4, 16⟩, ⟨false, false⟩⟩ ∧
    (after (.cmdStop 0x48000000) (reading 0 8)).transport.get .B = Transport.zero ∧
    (after (.cmdStop 0x48000000) (reading 0 8)).gmbus.status = 0x4800 ∧
    (after (.cmdStop 0x48000000) (reading 0 8)).gmbus.command = 0x08000000 := by decide

/-- SG5 with the software clear armed, after a NonIndexedStop command (L2.4). -/
def armed : State := { reading 0 0 with gmbus := { (reading 0 0).gmbus with command := 0x80000000 } }

/-- L2.4; and INT is cleared by the arm and by the completion (R152, R153). -/
theorem test_software_clear :
    after (.cmdSwclrHeld 0x80000000) armed = armed ∧
    (after (.cmdSwclrDone 0x0A0800A1) armed).gmbus = ⟨5, 0, 0x4800, 0xFFFFFF00, 0, 0⟩ ∧
    (after (.cmdSwclrDone 0) armed).transport.get .B = ⟨.gmbus, false, true, 0, ⟨.idle, 0, 0⟩, ⟨false, false⟩⟩ ∧
    (after (.cmdNocycle 0x80000000) { sg5 with gmbus := { sg5.gmbus with status := 0x5000 } }).gmbus.status = 0x4800 := by
  decide

/-- L1.3 (N = 8 and N = 10) and L1.4. -/
theorem test_grData :
    (after (.grData 4) (reading 4 8)).response.value = some 0x00FFFFFF ∧
    (after (.grData 4) (reading 4 8)).transport.get .B = Transport.zero ∧
    (after (.grData 4) (reading 8 10)).gmbus.data = 0xFFFF0908 ∧
    ((after (.grData 1) (reading 4 10)).transport.get .B).readCursor = 8 ∧
    (after (.grData 4) sg5).response.events = [.protocolViolation .dataReadNotReadDirection] := by decide

/-- P4 step 5 and R69. -/
theorem test_gwData :
    (after (.gwData 4 0xDEADBEEF) sg5).response = ⟨.rejectedDataWrite, none, [.dataWriteRejected]⟩ ∧
    (after (.gwData 8 0) sg5).response.outcome = .malformedAccess := by decide

/-- P1 steps 2 and 9. -/
theorem test_status :
    (after (.grStatus 4) sg5).response.value = some 0x4800 ∧ (after (.grStatus 4) sg5).gmbus.status = 0xC800 ∧
    (after (.gwStatus 4 0xFFFFFFFF) (after (.grStatus 4) sg5)).gmbus.status = 0x4800 := by decide

/-- L2.7 (byte order of the window) and P4 steps 1 and 9. -/
theorem test_passthrough :
    (after (.grPass 0x12 2) (after (.gwPass 0x10 4 0x12345678) sg5)).response.value = some 0x1234 ∧
    (after (.gwPass 0x20 2 0xBEEF) sg5).gmbus.index = 0x0000BEEF ∧
    (after (.grPass 0x05 2) sg5).response.outcome = .malformedAccess ∧
    (after (.grPass 0x14 4) sg5).response.outcome = .refused .outsideWindow := by decide

/-- L1.5 and L1.9. -/
theorem test_auxreq_start_read_seek :
    (after (.auxreqStartEdid .B 0x80300000 0x40005000) (started 2)).transport.get .B =
      ⟨.auxChannel, true, true, 2, ⟨.idle, 0, 0⟩, ⟨true, true⟩⟩ ∧
    ((after (.auxreqRead .B 0x80400000 0x50005000) (started 1)).aux.get .B).data1 = 0x00FF0000 ∧
    ((after (.auxreqRead .B 0x80400000 0x50005000) (started 1)).aux.get .B).auxctl = 0x40200000 ∧
    ((after (.auxreqSeek .B 0x80500000 0x40005000)
      (after (.awData2 .B 0x08000000) (started 0))).transport.get .B).readCursor = 8 ∧
    (after (.auxreqSeek .B 0x80400000 0x40005000) (started 0)).response.events = [.auxSeekTooShort] := by decide

/-- L1.6 and L2.8. -/
theorem test_auxreq_others :
    (after (.auxreqStop .B 0x80300000 0x10005000) (started 2)).transport.get .B = Transport.zero ∧
    (after (.auxreqAddr0 .B 0x80300000 0x40000000) (started 2)).transport.get .B = Transport.zero ∧
    (after (.auxreqStartOther .B 0x80300000 0x40003700) (started 2)).response.events =
      [.unsupportedAuxAddress 0x0037] ∧
    ((after (.auxreqWriteOther .B 0x80500000 0x40003700) (started 2)).aux.get .B).auxctl = 0x40100000 ∧
    ((after (.auxreqReadBadlen .B 0x80500000 0x50005000)
      (after (.awData1 .B 0x50005000) (started 2))).aux.get .B).data1 = 0x50005000 ∧
    ((after (.auxreqClear .B 0x40100000 0) (started 2)).aux.get .B).auxctl = 0x40100000 := by decide

/-- An AUXCTL write takes its header from the latched DATA1 (L1.5, second read); a read past the end (L1.9). -/
theorem test_awCtl :
    ((after (.awCtl .B 0x80400000) (after (.awData1 .B 0x50005000) (started 1))).aux.get .B).data1 = 0x00FF0000 ∧
    (after (.awCtl .B 0x80400000) (after (.awData1 .B 0x50005000) (started 128))).response.events =
      [.protocolViolation .outOfRange] := by decide

/-- L2.8, offsets. -/
theorem test_aux_words :
    ((after (.awData3 .A 0xCAFEF00D) sg).aux.get .A) = ⟨0, 0, 0, 0xCAFEF00D, 0, 0⟩ ∧
    ((after (.awData4 .A 1) sg).aux.get .A).data4 = 1 ∧ ((after (.awData5 .A 2) sg).aux.get .A).data5 = 2 ∧
    (after (.awBadoff .B 0x28 1) sg).response.outcome = .faultAuxBadOffset ∧
    (after (.ar .B 0x0C) sg).response.outcome = .faultAuxBadOffset ∧
    (after (.ar .B 0x10) (started 0)).response.value = some 0x40100000 := by decide

/-- L2.10. -/
theorem test_host :
    (after (.hostConfig .A true false none) sg).response.outcome = .refused .badConfig ∧
    (after (.hostConfig .A false false (some (List.replicate 100 0))) sg).response.outcome = .refused .badConfig ∧
    (after (.hostConfig .A false false none) sg).cfg.get .A = ⟨true, false, false, none⟩ ∧
    (after .hostReset (reading 0 8)).gmbus = ⟨0, 0, 0, 0, 0, 0⟩ ∧
    (after .hostReset (reading 0 8)).cfg = sg.cfg ∧
    (after (.hostInit .B) (started 2)).transport.get .B = Transport.zero := by decide

/-- L2.11: a descriptor that spells nothing. -/
theorem test_invalid :
    (after (.invalidAuxport 0x78000010) sg).response.outcome = .refused .badDescriptor ∧
    (after (.invalidHostport 0x98010000) sg).response.outcome = .refused .badDescriptor ∧
    (after (.invalid 0xC0000000) sg).response.outcome = .refused .badDescriptor := by decide

/-- The word placed for the host is the instruction the next step runs: P1 step 4, and the START of L1.5. -/
theorem test_withFetchWord :
    fetch (State.reset.withFetchWord 32 0x0200000C) = some (.grData 4, State.reset) ∧
    (fetch (State.reset.withFetchWord 40 0x048000000)).map Prod.fst = some (.gwCommand 4 0x48000000) ∧
    (fetch (State.reset.withFetchWord 64 0x8030000040005000)).map Prod.fst = some (.awCtl .A 0x80300000) := by decide

/-! ### Witnesses: a state and operands that meet the hypotheses of each statement that has some -/

/-- `s` with one call pending. -/
def calling (s : State) (r : Request) : State := { s with pending := [r] }

theorem witness_DecodeOfEncode :
    (Instr.grPass 0xFF 8).wellFormed = true ∧ (Instr.gwPass 0x05 1 0xFFFFFFFFFFFFFFFF).wellFormed = true ∧
    (Instr.awBadoff .F 0x28 0xFFFFFFFF).wellFormed = true ∧ (Instr.invalidAuxport 0x78000010).wellFormed = true ∧
    (Instr.invalidHostport 0x98010000).wellFormed = true ∧ (Instr.invalid 0x80030000).wellFormed = true ∧
    (Instr.cmdIdxStop 0xFFFFFFFF).wellFormed = true ∧ (Instr.cmdSwclrDone 0).wellFormed = true ∧
    (Instr.auxreqStartOther .C 0x80300000 0x40FFFF00).wellFormed = true ∧
    (Instr.auxreqReadBadlen .C 0x81F00000 0x10000000).wellFormed = true := by decide

theorem witness_DescriptorsRouteLikeCalls :
    (255 < 256 ∧ ((8 : Nat) = 1 ∨ (8 : Nat) = 2 ∨ (8 : Nat) = 4 ∨ (8 : Nat) = 8)) ∧
    (0 < 256 ∧ ((1 : Nat) = 1 ∨ (1 : Nat) = 2 ∨ (1 : Nat) = 4 ∨ (1 : Nat) = 8)) := by decide

theorem witness_StepRunsNextCall :
    (calling sg (.auxRead .B 0x10)).pending = .auxRead .B 0x10 :: [] ∧
    (calling sg (.descriptor 0x0200000C .zero)).pending = .descriptor 0x0200000C .zero :: [] ∧
    decode (.access 0x0200000C .zero) = .ok (.grData 4) ∧ sg.pending = [] := ⟨rfl, rfl, rfl, rfl⟩

theorem witness_StepRunsSelectedRow :
    (calling sg (.gmbusWrite 0x04 4 0x4A0800A1)).pending = .gmbusWrite 0x04 4 0x4A0800A1 :: [] ∧
    decode (.command (cmdKey ((calling sg (.gmbusWrite 0x04 4 0x4A0800A1)).gmbus.command.getLsbD 31)
      ((0x4A0800A1 : BitVec 64).setWidth 32))) = .ok (.cmdNidxStop 0x4A0800A1) ∧
    (calling sg (.auxWrite .B 0x64010 0x80300000)).pending = .auxWrite .B 0x64010 0x80300000 :: [] ∧
    (0x64010 : Word).extractLsb' 0 8 = (0x10 : Byte) ∧
    (calling sg (.auxWrite .B 0x64010 0x80300000)).params.edidAddr = 0x50 ∧
    decode (.auxRequest (auxKey 0x80300000 ((calling sg (.auxWrite .B 0x64010 0x80300000)).aux.get .B).data1) .B) =
      .ok (.auxreqStop .B 0x80300000 0) := ⟨rfl, rfl, rfl, rfl, rfl, rfl⟩

theorem witness_MalformedAccess :
    ¬ wellAligned 0x04 3 ∧ ¬ wellAligned 0x04 0 ∧ ¬ wellAligned 0x05 2 ∧ ¬ wellAligned 0x00 16 := by
  unfold wellAligned; decide

theorem witness_OutsideWindow :
    (wellAligned 0x14 1 ∧ ¬ insideBank 0x14 1) ∧ (wellAligned 0x10 8 ∧ ¬ insideBank 0x10 8) ∧
    (wellAligned 0x18 8 ∧ ¬ insideBank 0x18 8) ∧ (wellAligned 0x24 4 ∧ ¬ insideBank 0x24 4) := by
  unfold wellAligned insideBank; decide

theorem witness_AdmissionFollowsWidthTable :
    (wellAligned 0x08 8 ∧ insideBank 0x08 8 ∧ specialRead 0x08 8) ∧
    (wellAligned 0x0F 1 ∧ insideBank 0x0F 1 ∧ specialRead 0x0F 1) ∧
    (wellAligned 0x23 1 ∧ insideBank 0x23 1 ∧ ¬ specialRead 0x23 1) ∧
    (wellAligned 0x0C 4 ∧ insideBank 0x0C 4 ∧ ¬ specialRead 0x0C 4) ∧
    (wellAligned 0x00 8 ∧ insideBank 0x00 8 ∧ specialWrite 0x00 8) ∧
    (wellAligned 0x0E 2 ∧ insideBank 0x0E 2 ∧ specialWrite 0x0E 2) ∧
    (wellAligned 0x10 4 ∧ insideBank 0x10 4 ∧ ¬ specialWrite 0x10 4) ∧
    (wellAligned 0x0C 1 ∧ insideBank 0x0C 1 ∧ ¬ specialWrite 0x0C 1) := by
  refine ⟨?_, ?_, ?_, ?_, ?_, ?_, ?_, ?_⟩ <;> unfold wellAligned insideBank <;>
    first
      | (unfold specialRead; decide)
      | (unfold specialWrite; decide)

theorem witness_narrow_width : narrowWidth 1 ∧ narrowWidth 2 ∧ narrowWidth 4 := by unfold narrowWidth; decide

theorem witness_PassthroughReadReturnsBytes :
    (wellAligned 0x00 8 ∧ insideBank 0x00 8 ∧ (0x00 < 0x08 ∨ 0x10 ≤ 0x00)) ∧
    (wellAligned 0x07 1 ∧ insideBank 0x07 1 ∧ (0x07 < 0x08 ∨ 0x10 ≤ 0x07)) ∧
    (wellAligned 0x10 4 ∧ insideBank 0x10 4 ∧ (0x10 < 0x08 ∨ 0x10 ≤ 0x10)) := by
  unfold wellAligned insideBank; decide

theorem witness_PassthroughWriteStoresBytes :
    (wellAligned 0x10 4 ∧ insideBank 0x10 4 ∧ 0x10 ≤ 0x10) ∧ (wellAligned 0x23 1 ∧ insideBank 0x23 1 ∧ 0x10 ≤ 0x23) := by
  unfold wellAligned insideBank; decide

theorem witness_BankIsSixRegisters :
    3 < 4 ∧ (¬ 0x14 < 0x14 ∧ ¬ (0x20 ≤ 0x14 ∧ 0x14 < 0x24)) ∧ (¬ 0x24 < 0x14 ∧ ¬ (0x20 ≤ 0x24 ∧ 0x24 < 0x24)) := by
  decide

theorem witness_ControlWrites :
    resolve sg.params ((0xFFFFFFFD : BitVec 64).extractLsb' 0 3) = some .B ∧
    resolve sg.params ((0 : BitVec 64).extractLsb' 0 3) = none ∧
    resolve sg.params ((7 : BitVec 64).extractLsb' 0 3) = none := by decide

theorem witness_CommandDecoded_paths : sg5.activePort = some .B ∧ sg.activePort = none := by decide

theorem witness_StopGatedByLatchedCycle :
    (reading 0 8).gmbus.command.extractLsb' 25 3 ≠ 0 ∧ sg5.gmbus.command.extractLsb' 25 3 = 0 := by decide

theorem witness_DataReadWrongDirection : narrowWidth 4 ∧ sg5.gmbus.command.getLsbD 0 = false := by
  unfold narrowWidth; decide

theorem witness_DataReadNoActivePort :
    narrowWidth 1 ∧
    ({ reading 0 8 with gmbus := { (reading 0 8).gmbus with control := 0 } } : State).gmbus.command.getLsbD 0 = true ∧
    ({ reading 0 8 with gmbus := { (reading 0 8).gmbus with control := 0 } } : State).activePort = none := by
  unfold narrowWidth; decide

theorem witness_DataReadExhausted :
    narrowWidth 4 ∧ (reading 8 8).gmbus.command.getLsbD 0 = true ∧ (reading 8 8).activePort = some .B ∧
    ((reading 8 8).transport.get .B).gmbus.totalByteCount.toNat ≤ ((reading 8 8).transport.get .B).readCursor := by
  unfold narrowWidth; decide

/-- A full batch of a transaction of five bytes: k = m = 4. -/
theorem witness_DataReadDeliversBytes :
    narrowWidth 4 ∧ (reading 0 5).gmbus.command.getLsbD 0 = true ∧ (reading 0 5).activePort = some .B ∧
    serving (reading 0 5) .B ∧ ((reading 0 5).cfg.get .B).edid = some edidE ∧
    (reading 0 5).edidLen.get .B = edidE.length ∧
    ((reading 0 5).transport.get .B).gmbus.totalByteCount.toNat = ((reading 0 5).transport.get .B).readCursor + 5 ∧
    0 < 5 ∧ 4 = min 5 4 ∧ 4 = min 4 (edidE.length - ((reading 0 5).transport.get .B).readCursor) :=
  ⟨.inr (.inr rfl), rfl, rfl, (by unfold serving; decide), rfl, edidE_length.symm, rfl, (by decide), (by decide),
    (by rw [edidE_length]; rfl)⟩

/-- A last batch that starts at the last byte of the buffer: k = 4, m = 1. -/
theorem witness_DataReadDeliversBytes_atEnd :
    narrowWidth 1 ∧ (reading 127 131).gmbus.command.getLsbD 0 = true ∧ (reading 127 131).activePort = some .B ∧
    serving (reading 127 131) .B ∧ ((reading 127 131).cfg.get .B).edid = some edidE ∧
    (reading 127 131).edidLen.get .B = edidE.length ∧
    ((reading 127 131).transport.get .B).gmbus.totalByteCount.toNat =
      ((reading 127 131).transport.get .B).readCursor + 4 ∧
    0 < 4 ∧ 4 = min 4 4 ∧ 1 = min 4 (edidE.length - ((reading 127 131).transport.get .B).readCursor) :=
  ⟨.inl rfl, rfl, rfl, (by unfold serving; decide), rfl, edidE_length.symm, rfl, (by decide), (by decide),
    (by rw [edidE_length]; rfl)⟩

/-- Each of the three refusals, with one byte and with five remaining. -/
theorem witness_DataReadRefusedByCursor :
    (refusal ((reading 0 1).setTransport .B { (reading 0 1).transport.get .B with slaveSelected := false }) .B =
      some .notSelected) ∧
    (refusal ((reading 0 5).setTransport .B { (reading 0 5).transport.get .B with edidAvailable := false }) .B =
      some .unavailable) ∧
    (refusal ((reading 0 5).setCfg .B .unconfigured) .B = some .noMonitor) ∧
    ((reading 0 5).setCfg .B .unconfigured).gmbus.command.getLsbD 0 = true ∧
    ((reading 0 5).setCfg .B .unconfigured).activePort = some .B ∧
    (((reading 0 5).setCfg .B .unconfigured).transport.get .B).gmbus.totalByteCount.toNat =
      (((reading 0 5).setCfg .B .unconfigured).transport.get .B).readCursor + 5 ∧
    (((reading 0 1).setCfg .B .unconfigured).transport.get .B).gmbus.totalByteCount.toNat =
      (((reading 0 1).setCfg .B .unconfigured).transport.get .B).readCursor + 1 ∧
    (0 < 5 ∧ 4 = min 5 4) ∧ (0 < 1 ∧ 1 = min 1 4) := by decide

theorem witness_DataReadsDeliverFirstBytes :
    (reading 0 1).gmbus.command.getLsbD 0 = true ∧ (reading 0 1).activePort = some .B ∧
    serving (reading 0 1) .B ∧ ((reading 0 1).cfg.get .B).edid = some edidE ∧
    (reading 0 1).edidLen.get .B = edidE.length ∧ ((reading 0 1).transport.get .B).readCursor = 0 ∧
    ((reading 0 1).transport.get .B).gmbus.totalByteCount.toNat = 1 ∧ 0 < 1 ∧ 1 ≤ edidE.length :=
  ⟨rfl, rfl, (by unfold serving; decide), rfl, edidE_length.symm, rfl, rfl, (by decide), (by simp [edidE_length])⟩

theorem witness_DataReadsDeliverFirstBytes_whole :
    (reading 0 128).gmbus.command.getLsbD 0 = true ∧ (reading 0 128).activePort = some .B ∧
    serving (reading 0 128) .B ∧ ((reading 0 128).cfg.get .B).edid = some edidE ∧
    (reading 0 128).edidLen.get .B = edidE.length ∧ ((reading 0 128).transport.get .B).readCursor = 0 ∧
    ((reading 0 128).transport.get .B).gmbus.totalByteCount.toNat = 128 ∧ 0 < 128 ∧ 128 ≤ edidE.length :=
  ⟨rfl, rfl, (by unfold serving; decide), rfl, edidE_length.symm, rfl, rfl, (by decide), (by simp [edidE_length])⟩

theorem witness_AuxReadAndBadOffset :
    (0x00 : Byte) ∉ [0x10#8, 0x14#8, 0x18#8, 0x1C#8, 0x20#8, 0x24#8] ∧
    (0x25 : Byte) ∉ [0x10#8, 0x14#8, 0x18#8, 0x1C#8, 0x20#8, 0x24#8] := by decide

theorem witness_TriggeredWriteAlwaysReplies : (0x80000000 : Word).getLsbD 31 = true := by decide

theorem witness_AuxReadDeliversByte :
    serving (started 0) .B ∧ ((started 0).cfg.get .B).edid = some edidE ∧
    ((started 0).transport.get .B).readCursor < (started 0).edidLen.get .B ∧
    edidE[((started 0).transport.get .B).readCursor]? = some 0x00 :=
  ⟨(by unfold serving; decide), rfl, (by decide), (by decide +kernel)⟩

theorem witness_AuxReadDeliversByte_last :
    serving (started 127) .B ∧ ((started 127).cfg.get .B).edid = some edidE ∧
    ((started 127).transport.get .B).readCursor < (started 127).edidLen.get .B ∧
    edidE[((started 127).transport.get .B).readCursor]? = some 0x7F :=
  ⟨(by unfold serving; decide), rfl, (by decide), (by decide +kernel)⟩

theorem witness_AuxReadSentinels :
    (¬ ((sg.transport.get .B).edidAvailable = true ∧ (sg.transport.get .B).slaveSelected = true)) ∧
    (((started 0).transport.get .B).edidAvailable = true ∧ ((started 0).transport.get .B).slaveSelected = true) ∧
    refusal ((started 0).setCfg .B .unconfigured) .B = some .noMonitor ∧
    refusal ((started 0).setTransport .B { (started 0).transport.get .B with mode := .notSpecified }) .B =
      some .notSelected ∧
    refusal (started 128) .B = none ∧
    (started 128).edidLen.get .B ≤ ((started 128).transport.get .B).readCursor := by decide

/-- A refused length; a monitor with no EDID. -/
theorem witness_ConfigureChecksAndWrites_refused :
    (∃ bytes, some (List.replicate 127 (0 : Byte)) = some bytes ∧ bytes.length ≠ 128 ∧ bytes.length ≠ 256) ∧
    (true = true ∧ (none : Option (List Byte)) = none) :=
  ⟨⟨_, rfl, by simp⟩, rfl, rfl⟩

/-- A monitor with an EDID of 256 bytes; no monitor and no EDID. -/
theorem witness_ConfigureChecksAndWrites_accepted :
    ((∀ bytes, some (List.replicate 256 (0 : Byte)) = some bytes → bytes.length = 128 ∨ bytes.length = 256) ∧
      (true = true → some (List.replicate 256 (0 : Byte)) ≠ none)) ∧
    ((∀ bytes, (none : Option (List Byte)) = some bytes → bytes.length = 128 ∨ bytes.length = 256) ∧
      (false = true → (none : Option (List Byte)) ≠ none)) := by
  refine ⟨⟨fun bytes h => ?_, fun _ => Option.some_ne_none _⟩, (fun _ h => nomatch h), (fun h => nomatch h)⟩
  cases h
  exact .inr List.length_replicate

theorem witness_HostInit : ∃ t, exec (.hostInit .B) (started 2) = .next t := ⟨_, rfl⟩

/-- A legal state in which port B is started over AUX and is read. -/
theorem witness_StepKeepsInvariant :
    StateInv (calling (after (.hostInit .A) (started 5)) (.auxWrite .B 0x10 0x80400000)) ∧
    step (calling (after (.hostInit .A) (started 5)) (.auxWrite .B 0x10 0x80400000)) =
      .next (after (.awCtl .B 0x80400000) (after (.hostInit .A) (started 5))) := by
  refine ⟨⟨?_, ?_, ?_, ?_, ?_, ?_, ?_⟩, rfl⟩
  · intro p
    cases p
    case B => exact ⟨.inl rfl, fun _ h => (by cases h; rfl), fun _ h => (by cases h), fun h => (by cases h)⟩
    all_goals exact ⟨.inl rfl, fun _ h => (by cases h), fun h => (by cases h), fun _ => rfl⟩
  · intro p
    cases p
    case B => exact ⟨by decide, by decide, by decide, fun _ => .inr ⟨rfl, rfl, rfl⟩⟩
    all_goals exact ⟨by decide, by decide, by decide, fun h => (by cases h)⟩
  · intro p q hp
    cases p <;> cases hp
  · intro i _; rfl
  · intro h; cases h
  · intro _; rfl
  · intro _ p; cases p <;> rfl

theorem witness_NonOkOutcomeChangesNoState :
    exec (.gwData 4 0) sg5 = .next (after (.gwData 4 0) sg5) ∧ (after (.gwData 4 0) sg5).response.outcome ≠ .ok :=
  ⟨rfl, by decide⟩

theorem witness_OnlyConfigureWritesTable :
    exec .hostReset sg5 = .next (after .hostReset sg5) ∧ ∀ p mon dp edid, Instr.hostReset ≠ .hostConfig p mon dp edid :=
  ⟨rfl, fun _ _ _ _ h => (by cases h)⟩

theorem witness_StepKeepsParameters :
    step (calling sg5 .controllerReset) = .next (after .hostReset sg5) := rfl

theorem witness_AuxWritesOnlyItsPort :
    auxPort (.awCtl .B 0x80300000) = some .B ∧
    exec (.awCtl .B 0x80300000) (started 5) = .next (after (.awCtl .B 0x80300000) (started 5)) ∧ Port.C ≠ .B :=
  ⟨rfl, rfl, by decide⟩

/-- Two states that differ in the GMBUS window and in another port. -/
theorem witness_AuxReadsOnlyItsPort :
    auxPort (.awCtl .B 0x80400000) = some .B ∧
    (∀ s ∈ [((started 5).setAuxReg .A .data1 7).setStatus 9],
      s ≠ started 5 ∧ (started 5).params = s.params ∧ (started 5).aux.get .B = s.aux.get .B ∧
      (started 5).cfg.get .B = s.cfg.get .B ∧ (started 5).edidLen.get .B = s.edidLen.get .B ∧
      (started 5).transport.get .B = s.transport.get .B) ∧
    exec (.awCtl .B 0x80400000) (started 5) = .next (after (.awCtl .B 0x80400000) (started 5)) ∧
    exec (.awCtl .B 0x80400000) (((started 5).setAuxReg .A .data1 7).setStatus 9) =
      .next (after (.awCtl .B 0x80400000) (((started 5).setAuxReg .A .data1 7).setStatus 9)) :=
  ⟨rfl, by decide, rfl, rfl⟩

/-- A STATUS read while a software clear is armed. -/
theorem witness_GmbusWritesOnlyActivePort :
    isGmbusAccess (.grStatus 4) = true ∧ ¬ resetsController armed (.grStatus 4) ∧
    exec (.grStatus 4) armed = .next (after (.grStatus 4) armed) ∧ armed.activePort ≠ some .C :=
  ⟨rfl, by simp [resetsController], rfl, by decide⟩

/-- The accesses nearest to a controller reset that do none: a held COMMAND write, a COMMAND write while no clear is
armed, a CONTROL write whose selector does not resolve, and one that is too narrow. -/
theorem witness_GmbusWritesOnlyActivePort_edges :
    ¬ resetsController armed (.gwCommand 4 0x80000000) ∧ ¬ resetsController sg5 (.gwCommand 4 0) ∧
    ¬ resetsController sg5 (.gwControl 4 0) ∧ ¬ resetsController sg5 (.gwControl 2 5) := by
  refine ⟨?_, ?_, ?_, ?_⟩ <;> rintro (⟨v, h, hv⟩ | ⟨v, h, hv⟩ | ⟨v, h⟩) <;> cases h <;> revert hv <;> decide

theorem witness_OnlyDataReadChangesData :
    exec (.gwPass 0x10 4 7) sg5 = .next (after (.gwPass 0x10 4 7) sg5) ∧ (∀ w, Instr.gwPass 0x10 4 7 ≠ .grData w) ∧
    Instr.gwPass 0x10 4 7 ≠ .hostReset ∧ ∀ w v, Instr.gwPass 0x10 4 7 ≠ .gwPass 0x0C w v :=
  ⟨rfl, fun _ h => (by cases h), (by decide), fun _ _ h => (by cases h)⟩

/-- INT set before (a register reset value can set it), and still set after a STATUS read. -/
theorem witness_InterruptFlagNeverSet :
    exec (.grStatus 4) (sg5.setStatus 0x5800) = .next (after (.grStatus 4) (sg5.setStatus 0x5800)) ∧
    Instr.grStatus 4 ≠ .hostReset ∧ (∀ w v, Instr.grStatus 4 ≠ .gwPass 0x08 w v) ∧
    (after (.grStatus 4) (sg5.setStatus 0x5800)).gmbus.status.getLsbD 12 = true :=
  ⟨rfl, (by decide), fun _ _ h => (by cases h), by decide⟩

end Sys2Proof.Tests
end

section
/-! PROOFS. Admission of GMBUS accesses (R67 to R69, R251, R259): what turns an access away decides its step, whatever
register it is routed to. -/

namespace Sys2Proof.Machine

/-- The malformed check is the failure of R67's condition as the statements write it. -/
theorem malformed_eq_true_iff {off w : Nat} : malformed off w = true ↔ ¬ wellAligned off w := by
  rw [← Bool.not_eq_false, malformed_eq_false, wellAligned]

/-- The malformed check comes first in either direction (R259). -/
theorem admission_of_not_wellAligned {off w : Nat} (dir : Direction) (h : ¬ wellAligned off w) :
    admission dir off w = some .malformedAccess := by
  rw [admission, if_pos (malformed_eq_true_iff.2 h)]

/-- A read that admission turns away ends with that outcome and changes the response alone, whatever row it is routed
to. -/
theorem exec_routeGmbusRead_refused {off w : Nat} {o : StepOutcome} (s : State)
    (h : admission .read off w = some o) :
    exec (routeGmbusRead off w) s = .next { s with response := ⟨o, none, []⟩ } := by
  unfold routeGmbusRead
  split_ifs with hStatus hData
  · subst hStatus; rw [exec_grStatus]; exact gmbusAccess_refused _ s h
  · subst hData; rw [exec_grData]; exact gmbusAccess_refused _ s h
  · rw [exec_grPass]; exact gmbusAccess_refused _ s h

/-- A COMMAND write checks admission before it selects a form (R150). -/
theorem gwCommand_refused {w : Nat} {o : StepOutcome} (v : BitVec 64) (s : State)
    (h : admission .write 0x04 w = some o) :
    exec (.gwCommand w v) s = .next { s with response := ⟨o, none, []⟩ } := by
  rw [exec_gwCommand, h]; exact endWith_eq o s

/-- A write that admission turns away ends with that outcome and changes the response alone, whatever row it is routed
to. -/
theorem exec_routeGmbusWrite_refused {off w : Nat} {o : StepOutcome} (v : BitVec 64) (s : State)
    (h : admission .write off w = some o) :
    exec (routeGmbusWrite off w v) s = .next { s with response := ⟨o, none, []⟩ } := by
  unfold routeGmbusWrite
  split_ifs with hControl hCommand hStatus hData
  · subst hControl; rw [exec_gwControl]; exact gmbusAccess_refused _ s h
  · subst hCommand; exact gwCommand_refused v s h
  · subst hStatus; rw [exec_gwStatus]; exact gmbusAccess_refused _ s h
  · subst hData; rw [exec_gwData]; exact gmbusAccess_refused _ s h
  · rw [exec_gwPass]; exact gmbusAccess_refused _ s h

/-- Settles O11: admission fails its first check, and a refused access changes the response alone. -/
theorem malformedAccessChangesNothing : Obligations.MalformedAccessChangesNothing := by
  intro s off w v h
  exact ⟨exec_routeGmbusRead_refused s (admission_of_not_wellAligned .read h),
    exec_routeGmbusWrite_refused v s (admission_of_not_wellAligned .write h)⟩

end Sys2Proof.Machine
end

section
/-! PROOFS. A row of a table as tests of fields of its key (R82, R105): `key & mask = match` says that each field the
mask covers holds the row's value. For keys of any width. -/

namespace Sys2Proof

/-- A test of one field of a key: the `len` bits from bit `start` up are `value`. -/
structure FieldTest where
  start : Nat
  len   : Nat
  value : BitVec len

/-- The test that bit `i` of a key is `b`. -/
def FieldTest.bit (i : Nat) (b : Bool) : FieldTest := ⟨i, 1, BitVec.ofBool b⟩

/-- The key passes the test. -/
def FieldTest.holds {n : Nat} (key : BitVec n) (f : FieldTest) : Bool := key.extractLsb' f.start f.len == f.value

/-- The mask of one field, in a key of `n` bits. -/
def FieldTest.mask (n : Nat) (f : FieldTest) : BitVec n := (BitVec.allOnes f.len).setWidth n <<< f.start

/-- The match of one field, in a key of `n` bits. -/
def FieldTest.pattern (n : Nat) (f : FieldTest) : BitVec n := f.value.setWidth n <<< f.start

/-- The mask of a row with these tests. -/
def maskOf (n : Nat) : List FieldTest → BitVec n
  | [] => 0
  | f :: fs => f.mask n ||| maskOf n fs

/-- The match of a row with these tests. -/
def patternOf (n : Nat) : List FieldTest → BitVec n
  | [] => 0
  | f :: fs => f.pattern n ||| patternOf n fs

/-- The fields lie below bit `n`, in descending order and without overlap. -/
def descending (n : Nat) : List FieldTest → Bool
  | [] => true
  | f :: fs => decide (f.start + f.len ≤ n) && descending f.start fs

/-- The table row with these tests. -/
def rowOfTests {ρ : Type} {n : Nat} (tests : ρ → List FieldTest) (r : ρ) : TableRow ρ n :=
  ⟨r, maskOf n (tests r), patternOf n (tests r)⟩

theorem FieldTest.getLsbD_mask (n : Nat) (f : FieldTest) (i : Nat) :
    (f.mask n).getLsbD i = (decide (i < n) && decide (f.start ≤ i) && decide (i < f.start + f.len)) := by
  simp only [mask, BitVec.getLsbD_shiftLeft, BitVec.getLsbD_setWidth, BitVec.getLsbD_allOnes]
  grind

theorem FieldTest.getLsbD_pattern (n : Nat) (f : FieldTest) (i : Nat) :
    (f.pattern n).getLsbD i = (decide (i < n) && decide (f.start ≤ i) && f.value.getLsbD (i - f.start)) := by
  simp only [pattern, BitVec.getLsbD_shiftLeft, BitVec.getLsbD_setWidth]
  grind

/-- A field's match lies within its mask. -/
theorem FieldTest.pattern_and_mask (n : Nat) (f : FieldTest) : f.pattern n &&& f.mask n = f.pattern n := by
  refine BitVec.eq_of_getLsbD_eq fun i _ => ?_
  rw [BitVec.getLsbD_and, f.getLsbD_mask, f.getLsbD_pattern]
  grind

/-- A row's match lies within its mask. -/
theorem patternOf_and_maskOf (n : Nat) (fs : List FieldTest) : patternOf n fs &&& maskOf n fs = patternOf n fs := by
  induction fs with
  | nil => exact BitVec.and_self
  | cons f fs ih =>
    refine BitVec.eq_of_getLsbD_eq fun i _ => ?_
    have hf := congrArg (BitVec.getLsbD · i) (f.pattern_and_mask n)
    have hfs := congrArg (BitVec.getLsbD · i) ih
    simp only [patternOf, maskOf, BitVec.getLsbD_and, BitVec.getLsbD_or] at hf hfs ⊢
    grind

/-- Fields that lie below bit `m` leave the mask clear from there on. -/
theorem getLsbD_maskOf_of_descending {n m i : Nat} {fs : List FieldTest} (h : descending m fs = true) (hi : m ≤ i) :
    (maskOf n fs).getLsbD i = false := by
  induction fs generalizing m with
  | nil => exact BitVec.getLsbD_zero
  | cons f fs ih =>
    simp only [descending, Bool.and_eq_true, decide_eq_true_eq] at h
    obtain ⟨hf, hfs⟩ := h
    simp only [maskOf, BitVec.getLsbD_or, f.getLsbD_mask, ih hfs (by omega), Bool.or_false]
    grind

/-- The field of a key under one mask. -/
theorem FieldTest.and_mask_eq_pattern_iff {n : Nat} (key : BitVec n) (f : FieldTest) (h : f.start + f.len ≤ n) :
    key &&& f.mask n = f.pattern n ↔ f.holds key = true := by
  rw [holds, beq_iff_eq]
  constructor
  · intro heq
    refine BitVec.eq_of_getLsbD_eq fun j hj => ?_
    have hbit := congrArg (BitVec.getLsbD · (f.start + j)) heq
    simp only [BitVec.getLsbD_and, f.getLsbD_mask, f.getLsbD_pattern, Nat.add_sub_cancel_left] at hbit
    rw [BitVec.getLsbD_extractLsb']
    grind
  · intro heq
    refine BitVec.eq_of_getLsbD_eq fun i hi => ?_
    rw [BitVec.getLsbD_and, f.getLsbD_mask, f.getLsbD_pattern, ← heq, BitVec.getLsbD_extractLsb']
    grind

/-- One bit of a key under two disjoint masks. -/
theorem and_or_eq_or_bit : ∀ k m₁ m₂ p₁ p₂ : Bool, (m₁ && m₂) = false → (p₁ && m₁) = p₁ → (p₂ && m₂) = p₂ →
    (k && (m₁ || m₂)) = (p₁ || p₂) → (k && m₁) = p₁ ∧ (k && m₂) = p₂ := by
  decide

/-- Tests under disjoint masks are made one by one. -/
theorem and_or_eq_or_iff {n : Nat} {key m₁ m₂ p₁ p₂ : BitVec n} (hm : m₁ &&& m₂ = 0#n) (h₁ : p₁ &&& m₁ = p₁)
    (h₂ : p₂ &&& m₂ = p₂) : key &&& (m₁ ||| m₂) = p₁ ||| p₂ ↔ key &&& m₁ = p₁ ∧ key &&& m₂ = p₂ := by
  refine ⟨fun h => ?_, fun ⟨hk₁, hk₂⟩ => by rw [BitVec.and_or_distrib_left, hk₁, hk₂]⟩
  have hbit (i : Nat) : (key &&& m₁).getLsbD i = p₁.getLsbD i ∧ (key &&& m₂).getLsbD i = p₂.getLsbD i := by
    rw [BitVec.getLsbD_and, BitVec.getLsbD_and]
    refine and_or_eq_or_bit _ _ _ _ _ ?_ ?_ ?_ ?_
    · rw [← BitVec.getLsbD_and, hm, BitVec.getLsbD_zero]
    · rw [← BitVec.getLsbD_and, h₁]
    · rw [← BitVec.getLsbD_and, h₂]
    · rw [← BitVec.getLsbD_or, ← BitVec.getLsbD_and, h, BitVec.getLsbD_or]
  exact ⟨BitVec.eq_of_getLsbD_eq fun i _ => (hbit i).1, BitVec.eq_of_getLsbD_eq fun i _ => (hbit i).2⟩

/-- `key & mask = match` on a row of separate fields: every field holds its value. -/
theorem and_maskOf_eq_patternOf_iff {n m : Nat} (key : BitVec n) {fs : List FieldTest} (h : descending m fs = true)
    (hm : m ≤ n) : key &&& maskOf n fs = patternOf n fs ↔ fs.all (FieldTest.holds key) = true := by
  induction fs generalizing m with
  | nil => simp [maskOf, patternOf]
  | cons f fs ih =>
    simp only [descending, Bool.and_eq_true, decide_eq_true_eq] at h
    obtain ⟨hf, hfs⟩ := h
    have hdisjoint : f.mask n &&& maskOf n fs = 0#n := by
      refine BitVec.eq_of_getLsbD_eq fun i _ => ?_
      rw [BitVec.getLsbD_and, BitVec.getLsbD_zero, f.getLsbD_mask]
      by_cases hi : f.start ≤ i
      · rw [getLsbD_maskOf_of_descending hfs hi, Bool.and_false]
      · simp [hi]
    rw [maskOf, patternOf, and_or_eq_or_iff hdisjoint (f.pattern_and_mask n) (patternOf_and_maskOf n fs),
      f.and_mask_eq_pattern_iff key (by omega), ih hfs (by omega), List.all_cons, Bool.and_eq_true]

/-- A key matches a row of separate fields when it passes the row's tests. -/
theorem rowMatches_rowOfTests {ρ : Type} {n : Nat} (tests : ρ → List FieldTest) (r : ρ) (key : BitVec n)
    (h : descending n (tests r) = true) : rowMatches key (rowOfTests tests r) = (tests r).all (FieldTest.holds key) := by
  rw [Bool.eq_iff_iff, rowMatches, beq_iff_eq]
  exact and_maskOf_eq_patternOf_iff key h le_rfl

/-- The first row of a table of such rows is the first whose tests the key passes. -/
theorem firstRow_map_rowOfTests {ρ : Type} {n : Nat} (tests : ρ → List FieldTest) (rows : List ρ) (key : BitVec n)
    (h : ∀ r, descending n (tests r) = true) :
    firstRow (rows.map (rowOfTests tests)) key = rows.find? fun r => (tests r).all (FieldTest.holds key) := by
  have hmatch : rowMatches key ∘ rowOfTests tests = fun r => (tests r).all (FieldTest.holds key) :=
    funext fun r => rowMatches_rowOfTests tests r key (h r)
  rw [firstRow, List.find?_map, hmatch, Option.map_map]
  exact congrFun Option.map_id _

end Sys2Proof
end

section
/-! PROOFS. The AUXREQ rows (R97, R105): the tests each row makes, and the class its key decodes to. -/

namespace Sys2Proof

open Sys2Proof.Machine

/-- The tests of each AUXREQ row (R105): trigger is key bit 63, len bits 56:52, mot bit 30, isRead bit 28 and addr bits
23:8. A condition of R97 that an earlier row settles is not tested again. -/
def auxTests : AuxRow → List FieldTest
  | .auxreqClear => [.bit 63 false]
  | .auxreqStop => [.bit 63 true, ⟨52, 5, 3⟩, .bit 30 false]
  | .auxreqAddr0 => [.bit 63 true, ⟨52, 5, 3⟩, .bit 30 true, ⟨8, 16, 0⟩]
  | .auxreqStartEdid => [.bit 63 true, ⟨52, 5, 3⟩, .bit 30 true, ⟨8, 16, 0x50⟩]
  | .auxreqStartOther => [.bit 63 true, ⟨52, 5, 3⟩, .bit 30 true]
  | .auxreqSeek => [.bit 63 true, .bit 28 false, ⟨8, 16, 0x50⟩]
  | .auxreqWriteOther => [.bit 63 true, .bit 28 false]
  | .auxreqRead => [.bit 63 true, ⟨52, 5, 4⟩, .bit 28 true]
  | .auxreqReadBadlen => [.bit 63 true, .bit 28 true]

/-- The AUXREQ rows in the order of R97. -/
def auxRows : List AuxRow :=
  [.auxreqClear, .auxreqStop, .auxreqAddr0, .auxreqStartEdid, .auxreqStartOther, .auxreqSeek, .auxreqWriteOther,
    .auxreqRead, .auxreqReadBadlen]

/-- The masks and matches of the AUXREQ table are those of the tests. -/
theorem auxTable_eq_map_rowOfTests : auxTable = auxRows.map (rowOfTests auxTests) := rfl

theorem descending_auxTests (r : AuxRow) : descending 64 (auxTests r) = true := by
  cases r <;> rfl

/-- A test of bits 63:32 of an AUXREQ key is one of the written AUXCTL value (R105). -/
theorem holds_auxKey_of_le {start len : Nat} (x : BitVec len) (v d1 : Word) (h : 32 ≤ start) :
    FieldTest.holds (auxKey v d1) ⟨start, len, x⟩ = (v.extractLsb' (start - 32) len == x) := by
  rw [FieldTest.holds, auxKey, BitVec.extractLsb'_append_eq_of_le h]

/-- A test of bits 31:0 of an AUXREQ key is one of the latched DATA1 (R105). -/
theorem holds_auxKey_of_add_le {start len : Nat} (x : BitVec len) (v d1 : Word) (h : start + len ≤ 32) :
    FieldTest.holds (auxKey v d1) ⟨start, len, x⟩ = (d1.extractLsb' start len == x) := by
  rw [FieldTest.holds, auxKey, BitVec.extractLsb'_append_eq_of_add_le h]

/-- A bit test reads the bit. -/
theorem FieldTest.holds_bit {n : Nat} (key : BitVec n) (i : Nat) (b : Bool) :
    (FieldTest.bit i b).holds key = (key.getLsbD i == b) := by
  have hbit : key.extractLsb' i 1 = BitVec.ofBool (key.getLsbD i) := by
    refine BitVec.eq_of_getLsbD_eq fun j hj => ?_
    obtain rfl : j = 0 := by omega
    simp
  rw [holds, FieldTest.bit, hbit, Bool.eq_iff_iff, beq_iff_eq, beq_iff_eq]
  exact BitVec.ofBool_eq_iff_eq

theorem getLsbD_auxKey (v d1 : Word) (i : Nat) :
    (auxKey v d1).getLsbD i = if i < 32 then d1.getLsbD i else v.getLsbD (i - 32) := BitVec.getLsbD_append

/-- The instruction of the first AUXREQ row whose tests the key passes carries the port, AUXCTL value and DATA1 of the
key. -/
theorem decode_auxRequest_of_firstRow {row : AuxRow} (p : Port) (v d1 : Word)
    (h : firstRow auxTable (auxKey v d1) = some row) :
    decode (.auxRequest (auxKey v d1) p) = .ok (auxInstr row p v d1) := by
  simp only [decode, h]
  rw [auxKey, BitVec.extractLsb'_append_eq_left, BitVec.setWidth_append_eq_right]

/-- The conditions of R97 on a request: the trigger, `len = 3`, `len = 4`, `isRead`, `mot`, `addr = 0` and
`addr = 0x50`. -/
structure AuxConditions where
  trigger  : Bool
  bare     : Bool
  oneByte  : Bool
  isRead   : Bool
  mot      : Bool
  addrZero : Bool
  addrEdid : Bool

/-- The conditions that a written AUXCTL value and the latched DATA1 meet. -/
def auxConditions (v d1 : Word) : AuxConditions where
  trigger  := v.getLsbD 31
  bare     := v.extractLsb' 20 5 == 3
  oneByte  := v.extractLsb' 20 5 == 4
  isRead   := d1.getLsbD 28
  mot      := d1.getLsbD 30
  addrZero := d1.extractLsb' 8 16 == 0
  addrEdid := d1.extractLsb' 8 16 == 0x50

/-- What the tests of each AUXREQ row ask of a request. -/
def AuxConditions.passes (c : AuxConditions) : AuxRow → Bool
  | .auxreqClear => !c.trigger
  | .auxreqStop => c.trigger && c.bare && !c.mot
  | .auxreqAddr0 => c.trigger && c.bare && c.mot && c.addrZero
  | .auxreqStartEdid => c.trigger && c.bare && c.mot && c.addrEdid
  | .auxreqStartOther => c.trigger && c.bare && c.mot
  | .auxreqSeek => c.trigger && !c.isRead && c.addrEdid
  | .auxreqWriteOther => c.trigger && !c.isRead
  | .auxreqRead => c.trigger && c.oneByte && c.isRead
  | .auxreqReadBadlen => c.trigger && c.isRead

/-- The row of a request by the ordered list of R97, first match wins. -/
def AuxConditions.row (c : AuxConditions) : AuxRow :=
  if c.trigger = false then .auxreqClear
  else if c.bare ∧ c.mot = false then .auxreqStop
  else if c.bare ∧ c.addrZero then .auxreqAddr0
  else if c.bare ∧ c.addrEdid then .auxreqStartEdid
  else if c.bare then .auxreqStartOther
  else if c.isRead = false ∧ c.addrEdid then .auxreqSeek
  else if c.isRead = false then .auxreqWriteOther
  else if c.oneByte then .auxreqRead
  else .auxreqReadBadlen

theorem all_auxTests_auxKey (v d1 : Word) (r : AuxRow) :
    (auxTests r).all (FieldTest.holds (auxKey v d1)) = (auxConditions v d1).passes r := by
  have hTrigger : (auxKey v d1).getLsbD 63 = v.getLsbD 31 := getLsbD_auxKey v d1 63
  have hMot : (auxKey v d1).getLsbD 30 = d1.getLsbD 30 := getLsbD_auxKey v d1 30
  have hIsRead : (auxKey v d1).getLsbD 28 = d1.getLsbD 28 := getLsbD_auxKey v d1 28
  have hLen (x : BitVec 5) : FieldTest.holds (auxKey v d1) ⟨52, 5, x⟩ = (v.extractLsb' 20 5 == x) :=
    holds_auxKey_of_le x v d1 (by decide)
  have hAddr (x : BitVec 16) : FieldTest.holds (auxKey v d1) ⟨8, 16, x⟩ = (d1.extractLsb' 8 16 == x) :=
    holds_auxKey_of_add_le x v d1 (by decide)
  cases r <;> simp only [auxTests, AuxConditions.passes, auxConditions, List.all_cons, List.all_nil,
    FieldTest.holds_bit, hTrigger, hMot, hIsRead, hLen, hAddr, beq_true, beq_false, Bool.and_true, Bool.and_assoc]

/-- The first row that a request passes is the one of the ordered list: a condition of R97 that a row does not test has
been settled by the rows before it. -/
theorem AuxConditions.find?_passes (c : AuxConditions) : auxRows.find? c.passes = some c.row := by
  obtain ⟨trigger, bare, oneByte, isRead, mot, addrZero, addrEdid⟩ := c
  cases trigger with
  | false => rfl
  | true =>
    cases bare with
    | true =>
      cases mot with
      | false => rfl
      | true => cases addrZero <;> cases addrEdid <;> rfl
    | false =>
      cases isRead with
      | false => cases addrEdid <;> rfl
      | true => cases oneByte <;> rfl

theorem firstRow_auxKey (v d1 : Word) : firstRow auxTable (auxKey v d1) = some (auxConditions v d1).row := by
  rw [auxTable_eq_map_rowOfTests, firstRow_map_rowOfTests _ _ _ descending_auxTests,
    funext (all_auxTests_auxKey v d1)]
  exact AuxConditions.find?_passes _

/-- The instruction of the request's row is the class of the request, for `EDID_ADDR` = 0x50. -/
theorem auxInstr_row_auxConditions (p : Port) (v d1 : Word) :
    auxInstr (auxConditions v d1).row p v d1 = auxClass 0x50 p v d1 := by
  have hEdid : BitVec.setWidth 16 (0x50 : BitVec 7) = 0x50 := rfl
  simp only [AuxConditions.row, auxConditions, beq_iff_eq, apply_ite (auxInstr · p v d1)]
  simp only [auxInstr, auxClass, hEdid]

/-- Settles O4: the first row that the key matches is the row of the request, and its instruction the class. -/
theorem auxRowsSelectClasses : Obligations.AuxRowsSelectClasses := by
  intro p v d1
  rw [decode_auxRequest_of_firstRow p v d1 (firstRow_auxKey v d1), auxInstr_row_auxConditions]

end Sys2Proof
end

section
/-! PROOFS. Writes of STATUS and DATA, and the DATA read that consumes nothing (R164, R169, R172). -/

namespace Sys2Proof.Machine

/-- The table of R69 admits DATA at 1, 2 and 4 bytes in either direction. -/
theorem admission_data {w : Nat} (dir : Direction) (h : narrowWidth w) : admission dir 0x0C w = none := by
  obtain rfl | rfl | rfl := h <;> cases dir <;> decide

/-- Settles O19: the write is admitted, and the meaning of an admitted DATA write is its rejection. -/
theorem dataWriteRejectedUnchanged : Obligations.DataWriteRejectedUnchanged :=
  fun s _ v hw => gwData_next v s (admission_data .write hw)

/-- Settles O15: the write is admitted, and STATUS takes the value of `statusAfterWrite`. -/
theorem statusWriteClearsInuseOnly : Obligations.StatusWriteClearsInuseOnly := by
  intro s v
  refine ⟨_, gwStatus_next v s (by decide), fun i _ => ?_, rfl⟩
  have hBit : (v.setWidth 32).getLsbD 15 = v.getLsbD 15 := by simp
  rw [State.setStatus_gmbus, getLsbD_statusAfterWrite, hBit]

/-- The stale-value return of a step that has logged `events`: the latched DATA, reduced to the width. -/
theorem returnData_eq {events : List Event} (w : Nat) {s : State} (h : s.response = okResponse events) :
    returnData w s = { s with response := okRead w s.gmbus.data.toNat events } := by
  have hNat : (s.gmbus.data.setWidth 64).toNat = s.gmbus.data.toNat :=
    BitVec.toNat_setWidth_of_le (by decide)
  rw [returnData, State.returnValue, truncTo_eq, hNat, h]
  rfl

/-- `bytes_remaining` is not above 0 exactly where the count is not above the cursor (R164). -/
theorem bytesRemaining_nonpos {t : Transport} :
    bytesRemaining t ≤ 0 ↔ t.gmbus.totalByteCount.toNat ≤ t.readCursor := by
  unfold bytesRemaining
  omega

/-- A DATA read in the read direction on an active port with no bytes remaining returns the latched value (R164). -/
theorem dataRead_exhausted {s : State} {p : Port} (w : Nat) (hDir : s.gmbus.command.getLsbD 0 = true)
    (hPort : s.activePort = some p) (hRem : bytesRemaining (s.transport.get p) ≤ 0) :
    dataRead w s = returnData w s := by
  have hRead : cmdDir s.gmbus.command = true := hDir
  simp only [dataRead, hRead, hPort, hRem, Bool.not_true, Bool.false_eq_true, if_false, if_true]

/-- Settles O31: the read is admitted, nothing remains, and the stale-value return of a begun step logs nothing. -/
theorem dataReadExhausted : Obligations.DataReadExhausted := by
  intro s w p hw hDir hPort hCount
  have hStale : dataRead w s.beginStep = returnData w s.beginStep :=
    dataRead_exhausted w hDir hPort (bytesRemaining_nonpos.2 hCount)
  rw [grData_next s (admission_data .read hw), hStale, returnData_eq w (events := []) rfl]
  rfl

end Sys2Proof.Machine
end

section
/-! PROOFS. The fields of a decoded COMMAND write in the terms of the statements (R150, R152, R155, R157, R162), and the
cycle that adds nothing to them (R156). -/

namespace Sys2Proof.Machine

/-! ### The operands of the decoded value are those of the written one -/

theorem cmdCycle_cmdStrip (v : Word) : cmdCycle (cmdStrip v) = v.extractLsb' 25 3 :=
  extractLsb'_cmdStrip v 25 3 (by decide)

theorem cmdCount_cmdStrip (v : Word) : cmdCount (cmdStrip v) = (v.extractLsb' 16 9).setWidth 16 :=
  congrArg (BitVec.setWidth 16) (extractLsb'_cmdStrip v 16 9 (by decide))

theorem cmdIndex_cmdStrip (v : Word) : cmdIndex (cmdStrip v) = v.extractLsb' 8 8 :=
  extractLsb'_cmdStrip v 8 8 (by decide)

theorem cmdAddr_cmdStrip (v : Word) : cmdAddr (cmdStrip v) = v.extractLsb' 1 7 :=
  extractLsb'_cmdStrip v 1 7 (by decide)

theorem cmdIndexed_cmdStrip (v : Word) : cmdIndexed (cmdStrip v) = v.getLsbD 26 :=
  getLsbD_cmdStrip v 26

/-! ### What the fields leave in each part of the state -/

theorem commandFields_transport_some {s : State} {p : Port} (v : Word) (h : s.activePort = some p) :
    (commandFields v s).transport =
      s.transport.set p (decodedTransport s.params.edidAddr v (s.transport.get p)) := by
  rw [commandFields_eq]
  simp only [h, cmdCycle_cmdStrip, cmdCount_cmdStrip, cmdIndex_cmdStrip, cmdAddr_cmdStrip, cmdIndexed_cmdStrip,
    decodedTransport]

theorem commandFields_transport_none {s : State} (v : Word) (h : s.activePort = none) :
    (commandFields v s).transport = s.transport := by
  rw [commandFields_eq]
  simp only [h]

theorem commandFields_response (v : Word) (s : State) :
    (commandFields v s).response = { s.response with
      events := s.response.events ++ decodedEvents s.params.edidAddr v s.activePort } := by
  rw [commandFields_eq]
  simp only [cmdAddr_cmdStrip, decodedEvents, and_comm]

/-- The fields change STATUS only where the written value arms a software clear (R152). -/
theorem commandFields_status (v : Word) (s : State) :
    (commandFields v s).gmbus.status =
      if v.getLsbD 31 then statusAfterArm s.gmbus.status else s.gmbus.status := by
  rw [commandFields_eq]
  rfl

theorem getLsbD_commandFields_status (v : Word) (s : State) (i : Nat) :
    (commandFields v s).gmbus.status.getLsbD i =
      if i = 12 ∧ v.getLsbD 31 then false else if i = 11 ∧ v.getLsbD 31 then true
      else s.gmbus.status.getLsbD i := by
  rw [commandFields_status]
  by_cases hArm : v.getLsbD 31 = true
  · rw [if_pos hArm, getLsbD_statusAfterArm]
    by_cases hInt : i = 12 <;> simp [hArm, hInt]
  · simp only [hArm, Bool.false_eq_true, and_false, if_false]

/-- The fields of a decoded COMMAND write and the latch of its value, with no cycle effect between them (R150). -/
theorem commandFields_decoded (v : Word) (s : State) :
    CommandDecoded s ((commandFields v s.beginStep).setCommand (cmdStrip v)) v (fun x => x) none [] where
  command i _ := getLsbD_cmdStrip v i
  status i _ := by
    rw [State.setCommand_gmbus, getLsbD_commandFields_status, Option.getD_none, State.beginStep_gmbus]
    split_ifs with _ _ hActive
    · rfl
    · rfl
    · rw [hActive]
    · rfl
  path _ h := commandFields_transport_some v h
  noPath h := commandFields_transport_none v h
  response := by
    rw [State.setCommand_response, commandFields_response, List.append_nil]
    rfl
  frame := by
    rw [commandFields_eq]
    rfl

/-- Settles O25: the cycle effect of NoCycle is the identity, which leaves the fields and the latch. -/
theorem noCycleStoresFields : Obligations.NoCycleStoresFields :=
  fun s v => ⟨_, exec_cmdNocycle v s, commandFields_decoded v s⟩

end Sys2Proof.Machine
end

section
/-! PROOFS. The AUX reply in the terms of the statements (R98, R196, R205), the requests that reinitialise their port
(R197, R199), and the DATA-word stores (R192). -/

namespace Sys2Proof.Machine

/-! ### The words of a reply -/

theorem ofNat_shiftLeft (w x k : Nat) : BitVec.ofNat w (x <<< k) = BitVec.ofNat w x <<< k := by
  apply BitVec.eq_of_toNat_eq
  simp [Nat.shiftLeft_eq]

/-- Two fields placed in a word, the lower one below the start of the upper one, as a number. -/
theorem shiftLeft_or_shiftLeft_eq_ofNat {m n hi lo : Nat} (x : BitVec m) (y : BitVec n) (h : n + lo ≤ hi) :
    (x.setWidth 32 <<< hi) ||| (y.setWidth 32 <<< lo) = BitVec.ofNat 32 (x.toNat * 2 ^ hi + y.toNat * 2 ^ lo) := by
  have hLow : y.toNat <<< lo < 2 ^ hi :=
    (Nat.shiftLeft_lt y.isLt).trans_le (Nat.pow_le_pow_right Nat.two_pos h)
  rw [← Nat.shiftLeft_eq, ← Nat.shiftLeft_eq, Nat.shiftLeft_add_eq_or_of_lt hLow, BitVec.ofNat_or, ofNat_shiftLeft,
    ofNat_shiftLeft, BitVec.ofNat_toNat, BitVec.ofNat_toNat]

theorem auxReplyControl_eq (size : BitVec 5) :
    auxReplyControl size = BitVec.ofNat 32 (2 ^ 30 + size.toNat * 2 ^ 20) :=
  shiftLeft_or_shiftLeft_eq_ofNat (1#1) size (by decide)

theorem auxReplyData_eq (ack b : Byte) :
    auxReplyData ack b = BitVec.ofNat 32 (ack.toNat * 2 ^ 24 + b.toNat * 2 ^ 16) :=
  shiftLeft_or_shiftLeft_eq_ofNat ack b (by decide)

theorem auxIsRead_eq (d1 : Word) : auxIsRead d1 = d1.getLsbD 28 := by
  simp [auxIsRead, auxOp]

theorem replySize_toNat (params : Config.Params) (v d1 : Word) :
    (replySize params (auxIsRead d1) (auxLen v)).toNat = replySizeOf params v d1 := by
  rw [replySize, replySizeOf, auxIsRead_eq, auxLen]
  split_ifs <;> rfl

/-! ### A triggered request -/

/-- The two writes that a reply makes to the port's block, the control and then the payload. -/
theorem set_replyControl_set_replyData (s : State) (p : Port) (v d1 : Word) (b : Byte) :
    ((s.aux.get p).set .auxctl (auxReplyControl (replySize s.params (auxIsRead d1) (auxLen v)))).set .data1
      (auxReplyData s.params.auxAckCode b) = repliedBlock s p v d1 b := by
  simp only [repliedBlock, AuxBlock.set, auxReplyControl_eq, auxReplyData_eq, replySize_toNat]

/-- The reply control, then an effect that changes `T[p]` and logs events, then the payload (R193, R205). -/
theorem auxPayload_auxReply (s : State) (p : Port) (v d1 : Word) (b : Byte) (tp : Transport) (events : List Event) :
    auxPayload p b { auxReply p v d1 s.beginStep with
      transport := s.transport.set p tp, response := okResponse events } = afterRequest s p v d1 b tp events := by
  rw [afterRequest, ← set_replyControl_set_replyData]
  simp only [auxPayload, auxReply, State.setAuxReg, State.setAux, PortMap.get_set_self, PortMap.set_set]
  rfl

/-- The reinitialisation overwrites the flags of a START. -/
theorem initTransport_startFlags (p : Port) (s : State) : (startFlags p s).initTransport p = s.initTransport p := by
  simp only [State.initTransport, startFlags, State.updTransport, State.setTransport, PortMap.set_set]

/-- A triggered request that reinitialises its port and replies with the byte 0 (R197, R205). -/
theorem exec_auxreqStop_next (p : Port) (v d1 : Word) (s : State) :
    exec (.auxreqStop p v d1) s = .next (afterRequest s p v d1 0 Transport.zero []) := by
  rw [exec_auxreqStop, auxTriggered, ← auxPayload_auxReply]
  rfl

/-- An address reset does what a bare STOP does: the flags it sets do not outlive the reinitialisation (R199). -/
theorem exec_auxreqAddr0_eq_auxreqStop (p : Port) (v d1 : Word) (s : State) :
    exec (.auxreqAddr0 p v d1) s = exec (.auxreqStop p v d1) s := by
  simp only [exec_auxreqAddr0, exec_auxreqStop, initTransport_startFlags]

/-- Settles O40: the STOP is evaluated, and the address reset is equal to it. -/
theorem stopAndAddressResetReinitialise : Obligations.StopAndAddressResetReinitialise := by
  intro s p v d1 i hi
  have hCases : i = .auxreqStop p v d1 ∨ i = .auxreqAddr0 p v d1 := by simpa using hi
  obtain rfl | rfl := hCases
  · exact exec_auxreqStop_next p v d1 s
  · rw [exec_auxreqAddr0_eq_auxreqStop, exec_auxreqStop_next]

/-! ### The DATA-word stores -/

/-- A store to one AUX register: that register takes the value, and the other registers of the port, the other ports
and the rest of the state are kept. -/
theorem auxStore_next (p : Port) (r : AuxReg) (v : Word) (s : State) :
    ∃ t, auxStore p r v s = .next t ∧
      (t.aux.get p).get r = v ∧
      (∀ q, q ≠ r → (t.aux.get p).get q = (s.aux.get p).get q) ∧
      (∀ q, q ≠ p → t.aux.get q = s.aux.get q) ∧
      t = { s with aux := t.aux, response := okResponse [] } := by
  refine ⟨s.beginStep.setAuxReg p r v, rfl, ?named, ?otherWords, ?otherPorts, rfl⟩
  case named => simp
  case otherWords =>
    intro q hq
    simp [AuxBlock.get_set_ne _ v hq]
  case otherPorts =>
    intro q hq
    exact PortMap.get_set_ne s.aux _ hq

/-- Settles O35: each of the five writes is a store to its own word. -/
theorem auxDataWordStores : Obligations.AuxDataWordStores := by
  intro s p v ir hir
  have hStore : exec ir.1 s = auxStore p ir.2 v s := by
    simp only [List.mem_cons, List.not_mem_nil, or_false] at hir
    obtain rfl | rfl | rfl | rfl | rfl := hir <;> rfl
  rw [hStore]
  exact auxStore_next p ir.2 v s

end Sys2Proof.Machine
end

section
/-! PROOFS. The host operations on one port (R232, R233, R238, R240). -/

namespace Sys2Proof.Machine

/-! ### init_transport -/

/-- Reinitialising a port again changes nothing: the zero form is constant (R233). -/
theorem initTransport_idem (s : State) (p : Port) : (s.initTransport p).initTransport p = s.initTransport p := by
  simp only [State.initTransport, State.setTransport, PortMap.set_set]

/-- HOST.INIT begins a step and reinitialises the port (R240). -/
theorem exec_hostInit (p : Port) (s : State) : exec (.hostInit p) s = .next (s.beginStep.initTransport p) := rfl

/-- A second HOST.INIT on the same port ends in the state it started from (R233). -/
theorem exec_hostInit_again {p : Port} {s t : State} (h : exec (.hostInit p) s = .next t) :
    exec (.hostInit p) t = .next t := by
  rw [exec_hostInit] at h
  cases h
  have hBegun : (s.beginStep.initTransport p).beginStep = s.beginStep.initTransport p := rfl
  rw [exec_hostInit, hBegun, initTransport_idem]

/-- Settles O47: the zero form is the nine values, and writing it twice is writing it once. -/
theorem hostInitZeroesOnePort : Obligations.HostInitZeroesOnePort :=
  fun s p => ⟨exec_hostInit p s, fun _ h => exec_hostInit_again h⟩

/-! ### configure -/

/-- The arguments that `configure` refuses, as R238 lists them. -/
theorem badConfig_eq_true_iff {mon : Bool} {edid : Option (List Byte)} :
    badConfig mon edid = true ↔
      (∃ bytes, edid = some bytes ∧ bytes.length ≠ 128 ∧ bytes.length ≠ 256) ∨ (mon = true ∧ edid = none) := by
  cases edid with
  | none => simp [badConfig]
  | some bytes => simp [badConfig]

/-- The arguments that `configure` accepts: the ones outside R238's list. -/
theorem badConfig_eq_false_iff {mon : Bool} {edid : Option (List Byte)} :
    badConfig mon edid = false ↔
      (∀ bytes, edid = some bytes → bytes.length = 128 ∨ bytes.length = 256) ∧ (mon = true → edid ≠ none) := by
  rw [← Bool.not_eq_true, badConfig_eq_true_iff]
  grind

/-- The configured EDID length is the buffer's, and 128 with no buffer (R238). -/
theorem configuredLen_eq (edid : Option (List Byte)) : configuredLen edid = (edid.map List.length).getD 128 := by
  cases edid <;> rfl

/-- A refused HOST.CONFIG changes the response alone (R238, R258). -/
theorem exec_hostConfig_refused {mon : Bool} {edid : Option (List Byte)} (p : Port) (dp : Bool) (s : State)
    (h : badConfig mon edid = true) :
    exec (.hostConfig p mon dp edid) s = .next { s with response := ⟨.refused .badConfig, none, []⟩ } :=
  if_pos h

/-- An accepted HOST.CONFIG writes the entry and the EDID length of its port and reinitialises it (R238). -/
theorem exec_hostConfig_accepted {mon : Bool} {edid : Option (List Byte)} (p : Port) (dp : Bool) (s : State)
    (h : badConfig mon edid = false) :
    exec (.hostConfig p mon dp edid) s =
      .next (((s.beginStep.setCfg p ⟨true, mon, dp, edid⟩).setEdidLen p (configuredLen edid)).initTransport p) :=
  if_neg (Bool.eq_false_iff.1 h)

/-- Settles O48: the check of `configure` is R238's list, and each side of it has one result. -/
theorem configureChecksAndWrites : Obligations.ConfigureChecksAndWrites := by
  intro s p mon dp edid
  refine ⟨fun hBad => exec_hostConfig_refused p dp s (badConfig_eq_true_iff.2 hBad), fun hGood => ?_⟩
  rw [exec_hostConfig_accepted p dp s (badConfig_eq_false_iff.2 hGood), configuredLen_eq]
  rfl

end Sys2Proof.Machine
end

section
/-! PROOFS. The CMD rows (R99, R105): the tests each row makes, and the form its key decodes to. -/

namespace Sys2Proof

open Sys2Proof.Machine

/-- The tests of each CMD row (R105): OLDCLR is key bit 32, SW_CLR_INT bit 31 and CYCLE bits 27:25. -/
def cmdTests : CmdRow → List FieldTest
  | .cmdSwclrHeld => [.bit 32 true, .bit 31 true]
  | .cmdSwclrDone => [.bit 32 true, .bit 31 false]
  | .cmdNocycle => [.bit 32 false, ⟨25, 3, 0⟩]
  | .cmdStop => [.bit 32 false, ⟨25, 3, 4⟩]
  | .cmdNidxWait => [.bit 32 false, ⟨25, 3, 1⟩]
  | .cmdIdxWait => [.bit 32 false, ⟨25, 3, 3⟩]
  | .cmdNidxStop => [.bit 32 false, ⟨25, 3, 5⟩]
  | .cmdIdxStop => [.bit 32 false, ⟨25, 3, 7⟩]
  | .cmdRsvd2 => [.bit 32 false, ⟨25, 3, 2⟩]
  | .cmdRsvd6 => [.bit 32 false, ⟨25, 3, 6⟩]

/-- The CMD rows in the order of R105. -/
def cmdRows : List CmdRow :=
  [.cmdSwclrHeld, .cmdSwclrDone, .cmdNocycle, .cmdStop, .cmdNidxWait, .cmdIdxWait, .cmdNidxStop, .cmdIdxStop,
    .cmdRsvd2, .cmdRsvd6]

/-- The masks and matches of the CMD table are those of the tests. -/
theorem cmdTable_eq_map_rowOfTests : cmdTable = cmdRows.map (rowOfTests cmdTests) := rfl

theorem descending_cmdTests (r : CmdRow) : descending 33 (cmdTests r) = true := by
  cases r <;> rfl

/-- What the tests of each CMD row ask of the latched bit 31, the written bit 31 and the written CYCLE. -/
def cmdPasses (oldClr clr : Bool) (cycle : BitVec 3) : CmdRow → Bool
  | .cmdSwclrHeld => oldClr && clr
  | .cmdSwclrDone => oldClr && !clr
  | .cmdNocycle => !oldClr && cycle == 0
  | .cmdStop => !oldClr && cycle == 4
  | .cmdNidxWait => !oldClr && cycle == 1
  | .cmdIdxWait => !oldClr && cycle == 3
  | .cmdNidxStop => !oldClr && cycle == 5
  | .cmdIdxStop => !oldClr && cycle == 7
  | .cmdRsvd2 => !oldClr && cycle == 2
  | .cmdRsvd6 => !oldClr && cycle == 6

/-- The row of a COMMAND write: the software-clear rows while a clear is armed, the cycle's row otherwise (R99). -/
def cmdRowOf (oldClr clr : Bool) (cycle : BitVec 3) : CmdRow :=
  if oldClr then (if clr then .cmdSwclrHeld else .cmdSwclrDone)
  else if cycle = 0 then .cmdNocycle
  else if cycle = 4 then .cmdStop
  else if cycle = 1 then .cmdNidxWait
  else if cycle = 3 then .cmdIdxWait
  else if cycle = 5 then .cmdNidxStop
  else if cycle = 7 then .cmdIdxStop
  else if cycle = 2 then .cmdRsvd2
  else .cmdRsvd6

theorem getLsbD_cmdKey (oldClr : Bool) (v : Word) (i : Nat) :
    (cmdKey oldClr v).getLsbD i = if i < 32 then v.getLsbD i else (BitVec.ofBool oldClr).getLsbD (i - 32) :=
  BitVec.getLsbD_append

/-- The tests of a CMD row read the latched bit 31 and the written value. -/
theorem all_cmdTests_cmdKey (oldClr : Bool) (v : Word) (r : CmdRow) :
    (cmdTests r).all (FieldTest.holds (cmdKey oldClr v)) =
      cmdPasses oldClr (v.getLsbD 31) (v.extractLsb' 25 3) r := by
  have hOld : (cmdKey oldClr v).getLsbD 32 = oldClr := by
    rw [getLsbD_cmdKey, if_neg (by decide), BitVec.getLsbD_ofBool]
    exact Bool.true_and oldClr
  have hClr : (cmdKey oldClr v).getLsbD 31 = v.getLsbD 31 := getLsbD_cmdKey oldClr v 31
  have hCycle (x : BitVec 3) : FieldTest.holds (cmdKey oldClr v) ⟨25, 3, x⟩ = (v.extractLsb' 25 3 == x) := by
    have hLow : 25 + 3 ≤ 32 := by decide
    rw [FieldTest.holds, cmdKey, BitVec.extractLsb'_append_eq_of_add_le hLow]
  cases r <;> simp only [cmdTests, cmdPasses, List.all_cons, List.all_nil, FieldTest.holds_bit, hOld, hClr, hCycle,
    beq_true, beq_false, Bool.and_true]

/-- The eight cycles and the two software-clear paths have one row each. -/
theorem find?_cmdPasses : ∀ (oldClr clr : Bool) (cycle : BitVec 3),
    cmdRows.find? (cmdPasses oldClr clr cycle) = some (cmdRowOf oldClr clr cycle) := by
  decide

theorem firstRow_cmdKey (oldClr : Bool) (v : Word) :
    firstRow cmdTable (cmdKey oldClr v) = some (cmdRowOf oldClr (v.getLsbD 31) (v.extractLsb' 25 3)) := by
  rw [cmdTable_eq_map_rowOfTests, firstRow_map_rowOfTests _ _ _ descending_cmdTests,
    funext (all_cmdTests_cmdKey oldClr v), find?_cmdPasses]

/-- The instruction of the write's row is its form. -/
theorem cmdInstr_cmdRowOf (oldClr : Bool) (v : Word) :
    cmdInstr (cmdRowOf oldClr (v.getLsbD 31) (v.extractLsb' 25 3)) v = commandForm oldClr v := by
  simp only [cmdRowOf, apply_ite (cmdInstr · v)]
  simp only [cmdInstr, commandForm]

/-- Settles O3: the first row that the key matches is the row of the write, and its instruction the form. -/
theorem commandRowsSelectForms : Obligations.CommandRowsSelectForms := by
  intro oldClr v
  have hValue : (cmdKey oldClr v).setWidth 32 = v := BitVec.setWidth_append_eq_right
  simp only [decode, firstRow_cmdKey, hValue, cmdInstr_cmdRowOf]

end Sys2Proof
end

section
/-! PROOFS. The ACCESS rows (R81, R105): the tests each row makes of a descriptor, and the row it selects. -/

namespace Sys2Proof

open Sys2Proof.Machine

/-- The tests of the rows of one entry point: `IF`, `DIR` and bits 15:8, then those of `more`. -/
def callTests (iface : BitVec 2) (dir : Bool) (more : List FieldTest) : List FieldTest :=
  ⟨30, 2, iface⟩ :: .bit 29 dir :: ⟨8, 8, 0⟩ :: more

/-- The tests of a HOST row: `IF`, `HOP` and bits 15:8. -/
def hostTests (hop : BitVec 8) : List FieldTest := [⟨30, 2, 2⟩, ⟨16, 8, hop⟩, ⟨8, 8, 0⟩]

/-- The tests of each ACCESS row (R105): `PORT` is 6 or 7 where bits 28:27 are 3, and `HOP` is 0 or 1 where bits 23:17
are 0. -/
def accessTests : AccessRow → List FieldTest
  | .invalidAuxport => [⟨30, 2, 1⟩, ⟨27, 2, 3⟩]
  | .invalidHostport => [⟨30, 2, 2⟩, ⟨27, 2, 3⟩, ⟨17, 7, 0⟩]
  | .grStatus => callTests 0 false [⟨0, 8, 0x08⟩]
  | .grData => callTests 0 false [⟨0, 8, 0x0C⟩]
  | .grPass => callTests 0 false []
  | .gwControl => callTests 0 true [⟨0, 8, 0x00⟩]
  | .gwCommand => callTests 0 true [⟨0, 8, 0x04⟩]
  | .gwStatus => callTests 0 true [⟨0, 8, 0x08⟩]
  | .gwData => callTests 0 true [⟨0, 8, 0x0C⟩]
  | .gwPass => callTests 0 true []
  | .awCtl => callTests 1 true [⟨0, 8, 0x10⟩]
  | .awData1 => callTests 1 true [⟨0, 8, 0x14⟩]
  | .awData2 => callTests 1 true [⟨0, 8, 0x18⟩]
  | .awData3 => callTests 1 true [⟨0, 8, 0x1C⟩]
  | .awData4 => callTests 1 true [⟨0, 8, 0x20⟩]
  | .awData5 => callTests 1 true [⟨0, 8, 0x24⟩]
  | .awBadoff => callTests 1 true []
  | .ar => callTests 1 false []
  | .hostInit => hostTests 0
  | .hostConfig => hostTests 1
  | .hostReset => hostTests 2
  | .invalid => []

/-- The ACCESS rows in the order of R105. -/
def accessRows : List AccessRow :=
  [.invalidAuxport, .invalidHostport, .grStatus, .grData, .grPass, .gwControl, .gwCommand, .gwStatus, .gwData, .gwPass,
    .awCtl, .awData1, .awData2, .awData3, .awData4, .awData5, .awBadoff, .ar, .hostInit, .hostConfig, .hostReset,
    .invalid]

/-- The masks and matches of the ACCESS table are those of the tests. -/
theorem accessTable_eq_map_rowOfTests : accessTable = accessRows.map (rowOfTests accessTests) := rfl

theorem descending_accessTests (r : AccessRow) : descending 32 (accessTests r) = true := by
  cases r <;> rfl

/-- The fields of a descriptor that the rows test: `noPort` is `PORT` ≥ 6, `lowHop` is `HOP` ≤ 1 and `plain` is zero
bits 15:8. -/
structure AccessFields where
  iface  : BitVec 2
  dir    : Bool
  noPort : Bool
  lowHop : Bool
  hop    : BitVec 8
  plain  : Bool
  off    : BitVec 8

/-- The fields of a descriptor. -/
def accessFields (d : Word) : AccessFields where
  iface  := descIf d
  dir    := descDir d
  noPort := portBad d
  lowHop := decide ((descHop d).toNat ≤ 1)
  hop    := descHop d
  plain  := descZero d == 0
  off    := descOff d

/-- What the rows of one entry point ask of the fields. -/
def AccessFields.isCall (c : AccessFields) (iface : BitVec 2) (dir : Bool) : Bool :=
  c.iface == iface && (c.dir == dir && c.plain)

/-- What a HOST row asks of the fields. -/
def AccessFields.isHost (c : AccessFields) (hop : BitVec 8) : Bool := c.iface == 2 && (c.hop == hop && c.plain)

/-- What the tests of each ACCESS row ask of the fields. -/
def AccessFields.passes (c : AccessFields) : AccessRow → Bool
  | .invalidAuxport => c.iface == 1 && c.noPort
  | .invalidHostport => c.iface == 2 && (c.noPort && c.lowHop)
  | .grStatus => c.isCall 0 false && c.off == 0x08
  | .grData => c.isCall 0 false && c.off == 0x0C
  | .grPass => c.isCall 0 false
  | .gwControl => c.isCall 0 true && c.off == 0x00
  | .gwCommand => c.isCall 0 true && c.off == 0x04
  | .gwStatus => c.isCall 0 true && c.off == 0x08
  | .gwData => c.isCall 0 true && c.off == 0x0C
  | .gwPass => c.isCall 0 true
  | .awCtl => c.isCall 1 true && c.off == 0x10
  | .awData1 => c.isCall 1 true && c.off == 0x14
  | .awData2 => c.isCall 1 true && c.off == 0x18
  | .awData3 => c.isCall 1 true && c.off == 0x1C
  | .awData4 => c.isCall 1 true && c.off == 0x20
  | .awData5 => c.isCall 1 true && c.off == 0x24
  | .awBadoff => c.isCall 1 true
  | .ar => c.isCall 1 false
  | .hostInit => c.isHost 0
  | .hostConfig => c.isHost 1
  | .hostReset => c.isHost 2
  | .invalid => true

/-- The row of a GMBUS read by its offset (R140). -/
def gmbusReadRow (off : BitVec 8) : AccessRow :=
  if off = 0x08 then .grStatus else if off = 0x0C then .grData else .grPass

/-- The row of a GMBUS write by its offset (R140). -/
def gmbusWriteRow (off : BitVec 8) : AccessRow :=
  if off = 0x00 then .gwControl else if off = 0x04 then .gwCommand else if off = 0x08 then .gwStatus
  else if off = 0x0C then .gwData else .gwPass

/-- The row of an AUX write by its low offset (R190). -/
def auxWriteRow (off : BitVec 8) : AccessRow :=
  if off = 0x10 then .awCtl else if off = 0x14 then .awData1 else if off = 0x18 then .awData2
  else if off = 0x1C then .awData3 else if off = 0x20 then .awData4 else if off = 0x24 then .awData5 else .awBadoff

/-- The row of a HOST descriptor by its operation (R81). -/
def hostRow (hop : BitVec 8) : AccessRow :=
  if hop = 0 then .hostInit else if hop = 1 then .hostConfig else if hop = 2 then .hostReset else .invalid

/-- The row of a descriptor: first those without the port they need, then those with nonzero bits 15:8, then each
interface by its own field (R81, R105). -/
def AccessFields.row (c : AccessFields) : AccessRow :=
  if c.iface = 1 ∧ c.noPort then .invalidAuxport
  else if c.iface = 2 ∧ c.noPort ∧ c.lowHop then .invalidHostport
  else if c.plain = false then .invalid
  else if c.iface = 0 then (if c.dir then gmbusWriteRow c.off else gmbusReadRow c.off)
  else if c.iface = 1 then (if c.dir then auxWriteRow c.off else .ar)
  else if c.iface = 2 then hostRow c.hop
  else .invalid

theorem extractLsb'_port_eq_three (d : Word) : (d.extractLsb' 27 2 == 3#2) = portBad d := by
  rw [Bool.eq_iff_iff, beq_iff_eq, portBad, decide_eq_true_eq, BitVec.toNat_eq, descPort]
  simp only [BitVec.extractLsb'_toNat, Nat.shiftRight_eq_div_pow, BitVec.toNat_ofNat]
  omega

theorem extractLsb'_hop_eq_zero (d : Word) : (d.extractLsb' 17 7 == 0#7) = decide ((descHop d).toNat ≤ 1) := by
  rw [Bool.eq_iff_iff, beq_iff_eq, decide_eq_true_eq, BitVec.toNat_eq, descHop]
  simp only [BitVec.extractLsb'_toNat, Nat.shiftRight_eq_div_pow, BitVec.toNat_ofNat]
  omega

/-- The tests of an ACCESS row read the fields of the descriptor. -/
theorem all_accessTests (d : Word) (r : AccessRow) :
    (accessTests r).all (FieldTest.holds d) = (accessFields d).passes r := by
  have hDir (b : Bool) : (d.getLsbD 29 == b) = (descDir d == b) := rfl
  have hPort : FieldTest.holds d ⟨27, 2, 3⟩ = portBad d := extractLsb'_port_eq_three d
  have hLowHop : FieldTest.holds d ⟨17, 7, 0⟩ = decide ((descHop d).toNat ≤ 1) := extractLsb'_hop_eq_zero d
  have hIf (x : BitVec 2) : FieldTest.holds d ⟨30, 2, x⟩ = (descIf d == x) := rfl
  have hHop (x : BitVec 8) : FieldTest.holds d ⟨16, 8, x⟩ = (descHop d == x) := rfl
  have hZero : FieldTest.holds d ⟨8, 8, 0⟩ = (descZero d == 0) := rfl
  have hOff (x : BitVec 8) : FieldTest.holds d ⟨0, 8, x⟩ = (descOff d == x) := rfl
  cases r <;> simp only [accessTests, callTests, hostTests, AccessFields.passes, AccessFields.isCall,
    AccessFields.isHost, accessFields, List.all_cons, List.all_nil, FieldTest.holds_bit, hDir, hPort, hLowHop, hIf,
    hHop, hZero, hOff, Bool.and_true, Bool.and_assoc]

/-- A search as a chain of tests. -/
theorem find?_cons_ite {α : Type} (p : α → Bool) (a : α) (l : List α) :
    (a :: l).find? p = if p a = true then some a else l.find? p := by
  cases h : p a <;> simp [h]

/-- The first row that the fields pass is the row of the descriptor. -/
theorem AccessFields.find?_passes (c : AccessFields) : accessRows.find? c.passes = some c.row := by
  obtain ⟨iface, dir, noPort, lowHop, hop, plain, off⟩ := c
  have hIf : iface = 0 ∨ iface = 1 ∨ iface = 2 ∨ iface = 3 := by revert iface; decide
  simp only [accessRows, find?_cons_ite, row, apply_ite some]
  obtain rfl | rfl | rfl | rfl := hIf
  case inl =>
    cases plain with
    | false => simp [passes, isCall, isHost]
    | true =>
      cases dir with
      | false => simp [passes, isCall, gmbusReadRow, apply_ite some]
      | true => simp [passes, isCall, gmbusWriteRow, apply_ite some]
  case inr.inl =>
    cases noPort with
    | true => simp [passes]
    | false =>
      cases plain with
      | false => simp [passes, isCall, isHost]
      | true =>
        cases dir with
        | false => simp [passes, isCall]
        | true => simp [passes, isCall, auxWriteRow, apply_ite some]
  case inr.inr.inl =>
    cases plain with
    | false => simp [passes, isCall, isHost]
    | true => simp [passes, isCall, isHost, hostRow, apply_ite some]
  case inr.inr.inr => simp [passes, isCall, isHost]

/-- A descriptor decodes to the instruction of the row that its fields select. -/
theorem decodeAccess_eq (d : Word) (ops : CallOperands) :
    decodeAccess d ops = accessInstr (accessFields d).row d ops := by
  rw [decodeAccess, accessTable_eq_map_rowOfTests, firstRow_map_rowOfTests _ _ _ descending_accessTests,
    funext (all_accessTests d), AccessFields.find?_passes, Option.getD_some]

/-! ### The instruction of each interface is the operation its call routes to -/

theorem accessInstr_gmbusReadRow (d : Word) (ops : CallOperands) :
    accessInstr (gmbusReadRow (descOff d)) d ops = routeGmbusRead (descOff d).toNat (descWidth d) := by
  have hOff (x : BitVec 8) : descOff d = x ↔ (descOff d).toNat = x.toNat := BitVec.toNat_inj.symm
  simp only [gmbusReadRow, routeGmbusRead, apply_ite (accessInstr · d ops), hOff]
  rfl

theorem accessInstr_gmbusWriteRow (d : Word) (ops : CallOperands) :
    accessInstr (gmbusWriteRow (descOff d)) d ops = routeGmbusWrite (descOff d).toNat (descWidth d) ops.value := by
  have hOff (x : BitVec 8) : descOff d = x ↔ (descOff d).toNat = x.toNat := BitVec.toNat_inj.symm
  simp only [gmbusWriteRow, routeGmbusWrite, apply_ite (accessInstr · d ops), hOff]
  rfl

/-- The fixed table of R190 as a chain of tests. -/
theorem auxRegister_eq (off : Byte) :
    auxRegister off =
      if off = 0x10 then some .auxctl else if off = 0x14 then some .data1 else if off = 0x18 then some .data2
      else if off = 0x1C then some .data3 else if off = 0x20 then some .data4 else if off = 0x24 then some .data5
      else none := by
  have hOff (x : Byte) : off = x ↔ off.toNat = x.toNat := BitVec.toNat_inj.symm
  simp only [hOff]
  unfold auxRegister
  split <;> simp_all

theorem withPort_of_some {d : Word} {p : Port} (h : portOfIndex (descPort d) = some p) (k : Port → Instr) :
    accessInstr.withPort d k = k p := by
  rw [accessInstr.withPort, h]

/-- A low offset byte is the low byte of the offset it is extended to. -/
theorem auxLowOffset_setWidth (off : Byte) : auxLowOffset (off.setWidth 32) = off := by
  refine BitVec.eq_of_getLsbD_eq fun i hi => ?_
  rw [auxLowOffset, BitVec.getLsbD_extractLsb', BitVec.getLsbD_setWidth]
  simp [hi, show i < 32 by omega]

theorem accessInstr_auxWriteRow {d : Word} {p : Port} (ops : CallOperands) (h : portOfIndex (descPort d) = some p) :
    accessInstr (auxWriteRow (descOff d)) d ops =
      routeAuxWrite p ((descOff d).setWidth 32) (ops.value.setWidth 32) := by
  rw [routeAuxWrite, auxLowOffset_setWidth, auxRegister_eq, auxWriteRow]
  split_ifs <;> exact withPort_of_some h _

/-! ### What a descriptor decodes to, by its fields -/

section
variable {d : Word} (ops : CallOperands)

theorem portBad_of_portOfIndex {p : Port} (h : portOfIndex (descPort d) = some p) : portBad d = false := by
  have hIndex : ∀ n : BitVec 3, (portOfIndex n).isSome = true → decide (6 ≤ n.toNat) = false := by decide
  exact hIndex (descPort d) (by rw [h]; rfl)

theorem decodeAccess_badAuxPort (h : spellsBadAuxPort d = true) : decodeAccess d ops = .invalidAuxport d := by
  simp only [spellsBadAuxPort, Bool.and_eq_true, beq_iff_eq] at h
  have hRow : (accessFields d).row = .invalidAuxport := if_pos h
  rw [decodeAccess_eq, hRow]
  rfl

theorem decodeAccess_badHostPort (h : spellsBadHostPort d = true) : decodeAccess d ops = .invalidHostport d := by
  simp only [spellsBadHostPort, Bool.and_eq_true, beq_iff_eq, decide_eq_true_eq] at h
  obtain ⟨⟨hIf, hPort⟩, hHop⟩ := h
  have hRow : (accessFields d).row = .invalidHostport := by
    simp [AccessFields.row, accessFields, hIf, hPort, hHop]
  rw [decodeAccess_eq, hRow]
  rfl

/-- The HOST operations above 2 are none (R81). -/
theorem hostRow_of_three_le {hop : BitVec 8} (h : 3 ≤ hop.toNat) : hostRow hop = .invalid := by
  have hne : hop ≠ 0 ∧ hop ≠ 1 ∧ hop ≠ 2 := by
    refine ⟨?_, ?_, ?_⟩ <;> rintro rfl <;> exact absurd h (by decide)
  obtain ⟨h0, h1, h2⟩ := hne
  rw [hostRow, if_neg h0, if_neg h1, if_neg h2]

theorem decodeAccess_nothing (h : spellsNothing d = true) : decodeAccess d ops = .invalid d := by
  have hRow : (accessFields d).row = .invalid := by
    simp only [spellsNothing, spellsBadAuxPort, spellsBadHostPort] at h
    have hHop : 3 ≤ (descHop d).toNat → hostRow (descHop d) = .invalid := hostRow_of_three_le
    simp only [AccessFields.row, accessFields]
    grind
  rw [decodeAccess_eq, hRow]
  rfl

theorem decodeAccess_gmbusRead (hIf : descIf d = 0) (hZero : descZero d = 0) (hDir : descDir d = false) :
    decodeAccess d ops = routeGmbusRead (descOff d).toNat (descWidth d) := by
  have hRow : (accessFields d).row = gmbusReadRow (descOff d) := by
    simp [AccessFields.row, accessFields, hIf, hZero, hDir]
  rw [decodeAccess_eq, hRow, accessInstr_gmbusReadRow]

theorem decodeAccess_gmbusWrite (hIf : descIf d = 0) (hZero : descZero d = 0) (hDir : descDir d = true) :
    decodeAccess d ops = routeGmbusWrite (descOff d).toNat (descWidth d) ops.value := by
  have hRow : (accessFields d).row = gmbusWriteRow (descOff d) := by
    simp [AccessFields.row, accessFields, hIf, hZero, hDir]
  rw [decodeAccess_eq, hRow, accessInstr_gmbusWriteRow]

variable {p : Port}

theorem decodeAccess_auxWrite (hIf : descIf d = 1) (hZero : descZero d = 0) (hDir : descDir d = true)
    (hPort : portOfIndex (descPort d) = some p) :
    decodeAccess d ops = routeAuxWrite p ((descOff d).setWidth 32) (ops.value.setWidth 32) := by
  have hRow : (accessFields d).row = auxWriteRow (descOff d) := by
    simp [AccessFields.row, accessFields, hIf, hZero, hDir, portBad_of_portOfIndex hPort]
  rw [decodeAccess_eq, hRow, accessInstr_auxWriteRow ops hPort]

theorem decodeAccess_auxRead (hIf : descIf d = 1) (hZero : descZero d = 0) (hDir : descDir d = false)
    (hPort : portOfIndex (descPort d) = some p) : decodeAccess d ops = .ar p (descOff d) := by
  have hRow : (accessFields d).row = .ar := by
    simp [AccessFields.row, accessFields, hIf, hZero, hDir, portBad_of_portOfIndex hPort]
  rw [decodeAccess_eq, hRow]
  exact withPort_of_some hPort _

theorem decodeAccess_hostInit (hIf : descIf d = 2) (hZero : descZero d = 0) (hHop : descHop d = 0)
    (hPort : portOfIndex (descPort d) = some p) : decodeAccess d ops = .hostInit p := by
  have hRow : (accessFields d).row = .hostInit := by
    simp [AccessFields.row, accessFields, hIf, hZero, hHop, hostRow, portBad_of_portOfIndex hPort]
  rw [decodeAccess_eq, hRow]
  exact withPort_of_some hPort _

theorem decodeAccess_hostConfig (hIf : descIf d = 2) (hZero : descZero d = 0) (hHop : descHop d = 1)
    (hPort : portOfIndex (descPort d) = some p) : decodeAccess d ops = .hostConfig p ops.mon ops.dp ops.edid := by
  have hRow : (accessFields d).row = .hostConfig := by
    simp [AccessFields.row, accessFields, hIf, hZero, hHop, hostRow, portBad_of_portOfIndex hPort]
  rw [decodeAccess_eq, hRow]
  exact withPort_of_some hPort _

theorem decodeAccess_hostReset (hIf : descIf d = 2) (hZero : descZero d = 0) (hHop : descHop d = 2) :
    decodeAccess d ops = .hostReset := by
  have hRow : (accessFields d).row = .hostReset := by
    simp [AccessFields.row, accessFields, hIf, hZero, hHop, hostRow]
  rw [decodeAccess_eq, hRow]
  rfl

end

/-! ### Every descriptor spells a well-formed instruction -/

/-- The width of a descriptor is a power of two up to 8 (R81). -/
theorem widthOk_descWidth (d : Word) : widthOk (descWidth d) = true := by
  have hWl : ∀ wl : BitVec 2, widthOk (2 ^ wl.toNat) = true := by decide
  exact hWl (descWl d)

theorem offsetOk_descOff (d : Word) : offsetOk (descOff d).toNat = true := decide_eq_true (descOff d).isLt

theorem wellFormed_routeGmbusRead {off w : Nat} (hw : widthOk w = true) (hOff : offsetOk off = true) :
    (routeGmbusRead off w).wellFormed = true := by
  unfold routeGmbusRead
  split_ifs with hStatus hData
  · exact hw
  · exact hw
  · simp [Instr.wellFormed, hw, hOff, hStatus, hData]

theorem wellFormed_routeGmbusWrite {off w : Nat} (v : BitVec 64) (hw : widthOk w = true) (hOff : offsetOk off = true) :
    (routeGmbusWrite off w v).wellFormed = true := by
  unfold routeGmbusWrite
  split_ifs with hControl hCommand hStatus hData
  · exact hw
  · exact hw
  · exact hw
  · exact hw
  · simp [Instr.wellFormed, hw, hOff, hControl, hCommand, hStatus, hData]

theorem wellFormed_routeAuxWrite (p : Port) (off v : Word) : (routeAuxWrite p off v).wellFormed = true := by
  unfold routeAuxWrite
  split
  case h_7 hNone => exact Option.isNone_iff_eq_none.2 hNone
  all_goals rfl

/-- A port index below 6 is a port (R81). -/
theorem portOfIndex_of_portBad_eq_false {d : Word} (h : portBad d = false) :
    ∃ p, portOfIndex (descPort d) = some p := by
  have hIndex : ∀ n : BitVec 3, decide (6 ≤ n.toNat) = false → (portOfIndex n).isSome = true := by decide
  exact Option.isSome_iff_exists.1 (hIndex (descPort d) h)

/-- A descriptor that is not one of the three rows of R81 that spell no operation has zero bits 15:8 and is a GMBUS
access, an AUX access with its port, or a HOST operation with the port it needs. -/
theorem descriptor_cases (d : Word) :
    spellsBadAuxPort d = true ∨ spellsBadHostPort d = true ∨ spellsNothing d = true ∨
    (descZero d = 0 ∧ (descIf d = 0 ∨ (descIf d = 1 ∧ portBad d = false) ∨
      (descIf d = 2 ∧ (descHop d = 0 ∨ descHop d = 1) ∧ portBad d = false) ∨ (descIf d = 2 ∧ descHop d = 2))) := by
  have hIf : ∀ x : BitVec 2, x = 0 ∨ x = 1 ∨ x = 2 ∨ x = 3 := by decide
  have hHop : descHop d = 0#8 ∨ descHop d = 1#8 ∨ descHop d = 2#8 ∨ 3 ≤ (descHop d).toNat := by
    simp only [← BitVec.toNat_inj, BitVec.toNat_ofNat]
    omega
  specialize hIf (descIf d)
  simp only [spellsNothing, spellsBadAuxPort, spellsBadHostPort]
  grind

/-- Every access descriptor decodes to a well-formed instruction. -/
theorem wellFormed_decodeAccess (d : Word) (ops : CallOperands) : (decodeAccess d ops).wellFormed = true := by
  obtain hAux | hHost | hNothing | ⟨hZero, hGmbus | ⟨hIf, hPort⟩ | ⟨hIf, hHop, hPort⟩ | ⟨hIf, hHop⟩⟩ :=
    descriptor_cases d
  · rw [decodeAccess_badAuxPort ops hAux]; exact hAux
  · rw [decodeAccess_badHostPort ops hHost]; exact hHost
  · rw [decodeAccess_nothing ops hNothing]; exact hNothing
  · cases hDir : descDir d with
    | false =>
      rw [decodeAccess_gmbusRead ops hGmbus hZero hDir]
      exact wellFormed_routeGmbusRead (widthOk_descWidth d) (offsetOk_descOff d)
    | true =>
      rw [decodeAccess_gmbusWrite ops hGmbus hZero hDir]
      exact wellFormed_routeGmbusWrite _ (widthOk_descWidth d) (offsetOk_descOff d)
  · obtain ⟨p, hp⟩ := portOfIndex_of_portBad_eq_false hPort
    cases hDir : descDir d with
    | false => rw [decodeAccess_auxRead ops hIf hZero hDir hp]; rfl
    | true => rw [decodeAccess_auxWrite ops hIf hZero hDir hp]; exact wellFormed_routeAuxWrite p _ _
  · obtain ⟨p, hp⟩ := portOfIndex_of_portBad_eq_false hPort
    obtain hHop | hHop := hHop
    · rw [decodeAccess_hostInit ops hIf hZero hHop hp]; rfl
    · rw [decodeAccess_hostConfig ops hIf hZero hHop hp]; rfl
  · rw [decodeAccess_hostReset ops hIf hZero hHop]; rfl
end Sys2Proof
end

section
/-! PROOFS. Encoding and decoding (R81, R99, R105): the fields of a composed descriptor, what the words of a call and of
a form decode to, and that decoding an encoded instruction gives it back. -/

namespace Sys2Proof

open Sys2Proof.Machine

/-! ### The fields of a composed descriptor -/

section
variable (iface : BitVec 2) (dir : Bool) (port : BitVec 3) (wl : BitVec 2) (hop off : BitVec 8)

@[simp] theorem descIf_descriptorOf : descIf (descriptorOf iface dir port wl hop off) = iface := by
  refine BitVec.eq_of_getLsbD_eq fun i hi => ?_
  simp only [descIf, descriptorOf, BitVec.getLsbD_extractLsb', BitVec.getLsbD_append]
  grind

@[simp] theorem descDir_descriptorOf : descDir (descriptorOf iface dir port wl hop off) = dir := by
  simp only [descDir, bit, descriptorOf, BitVec.getLsbD_append]
  cases dir <;> rfl

@[simp] theorem descPort_descriptorOf : descPort (descriptorOf iface dir port wl hop off) = port := by
  refine BitVec.eq_of_getLsbD_eq fun i hi => ?_
  simp only [descPort, descriptorOf, BitVec.getLsbD_extractLsb', BitVec.getLsbD_append]
  grind

@[simp] theorem descWl_descriptorOf : descWl (descriptorOf iface dir port wl hop off) = wl := by
  refine BitVec.eq_of_getLsbD_eq fun i hi => ?_
  simp only [descWl, descriptorOf, BitVec.getLsbD_extractLsb', BitVec.getLsbD_append]
  grind

@[simp] theorem descHop_descriptorOf : descHop (descriptorOf iface dir port wl hop off) = hop := by
  refine BitVec.eq_of_getLsbD_eq fun i hi => ?_
  simp only [descHop, descriptorOf, BitVec.getLsbD_extractLsb', BitVec.getLsbD_append]
  grind

@[simp] theorem descZero_descriptorOf : descZero (descriptorOf iface dir port wl hop off) = 0 := by
  refine BitVec.eq_of_getLsbD_eq fun i hi => ?_
  simp only [descZero, descriptorOf, BitVec.getLsbD_extractLsb', BitVec.getLsbD_append]
  grind

@[simp] theorem descOff_descriptorOf : descOff (descriptorOf iface dir port wl hop off) = off := by
  refine BitVec.eq_of_getLsbD_eq fun i hi => ?_
  simp only [descOff, descriptorOf, BitVec.getLsbD_extractLsb', BitVec.getLsbD_append]
  grind

end


theorem portOfIndex_portField (p : Port) : portOfIndex (portField p) = some p := by
  cases p <;> rfl

/-- The width a descriptor is composed for is the width it gives. -/
theorem two_pow_wlOf {w : Nat} (h : w = 1 ∨ w = 2 ∨ w = 4 ∨ w = 8) : 2 ^ (wlOf w).toNat = w := by
  obtain rfl | rfl | rfl | rfl := h <;> rfl

/-! ### What the words of a call decode to -/

theorem decode_encodeGmbusRead {off w : Nat} (hOff : off < 256) (hw : w = 1 ∨ w = 2 ∨ w = 4 ∨ w = 8) :
    decode (encodeGmbusRead off w) = .ok (routeGmbusRead off w) := by
  have hNat : off % 2 ^ 8 = off := Nat.mod_eq_of_lt hOff
  rw [encodeGmbusRead, decode, decodeAccess_gmbusRead _ (by simp) (by simp) (by simp), descWidth]
  simp only [descOff_descriptorOf, descWl_descriptorOf, BitVec.toNat_ofNat, hNat, two_pow_wlOf hw]

theorem decode_encodeGmbusWrite {off w : Nat} (v : BitVec 64) (hOff : off < 256)
    (hw : w = 1 ∨ w = 2 ∨ w = 4 ∨ w = 8) :
    decode (encodeGmbusWrite off w v) = .ok (routeGmbusWrite off w v) := by
  have hNat : off % 2 ^ 8 = off := Nat.mod_eq_of_lt hOff
  rw [encodeGmbusWrite, decode, decodeAccess_gmbusWrite _ (by simp) (by simp) (by simp), descWidth]
  simp only [descOff_descriptorOf, descWl_descriptorOf, BitVec.toNat_ofNat, hNat, two_pow_wlOf hw, valueOperand]

theorem portOfIndex_descPort_descriptorOf (iface : BitVec 2) (dir : Bool) (p : Port) (wl : BitVec 2)
    (hop off : BitVec 8) : portOfIndex (descPort (descriptorOf iface dir (portField p) wl hop off)) = some p := by
  rw [descPort_descriptorOf, portOfIndex_portField]

theorem decode_encodeAuxWrite (p : Port) (off : Byte) (v : Word) :
    decode (encodeAuxWrite p off v) = .ok (routeAuxWrite p (off.setWidth 32) v) := by
  have hValue : (v.setWidth 64).setWidth 32 = v := by simp
  rw [encodeAuxWrite, decode,
    decodeAccess_auxWrite _ (by simp) (by simp) (by simp) (portOfIndex_descPort_descriptorOf _ _ p _ _ _)]
  simp only [descOff_descriptorOf, valueOperand, hValue]

/-- An AUX write is routed by the low byte of its offset alone (R190). -/
theorem routeAuxWrite_lowOffset (p : Port) (off v : Word) :
    routeAuxWrite p ((auxLowOffset off).setWidth 32) v = routeAuxWrite p off v := by
  rw [routeAuxWrite, routeAuxWrite, auxLowOffset_setWidth]

theorem decode_auxRead (p : Port) (off : Byte) :
    decode (.access (descriptorOf 1 false (portField p) 0 0 off) .zero) = .ok (.ar p off) := by
  rw [decode,
    decodeAccess_auxRead _ (by simp) (by simp) (by simp) (portOfIndex_descPort_descriptorOf _ _ p _ _ _),
    descOff_descriptorOf]

theorem decode_encode_hostInit (p : Port) : decode (encode (.hostInit p)) = .ok (.hostInit p) := by
  rw [encode, decode,
    decodeAccess_hostInit _ (by simp) (by simp) (by simp) (portOfIndex_descPort_descriptorOf _ _ p _ _ _)]

theorem decode_encode_hostConfig (p : Port) (mon dp : Bool) (edid : Option (List Byte)) :
    decode (encode (.hostConfig p mon dp edid)) = .ok (.hostConfig p mon dp edid) := by
  rw [encode, decode,
    decodeAccess_hostConfig _ (by simp) (by simp) (by simp) (portOfIndex_descPort_descriptorOf _ _ p _ _ _)]

theorem decode_encode_hostReset : decode (encode .hostReset) = .ok .hostReset := by
  rw [encode, decode, decodeAccess_hostReset _ (by simp) (by simp) (by simp)]

/-- Settles O5: the descriptor of each call has the call's fields, and decodes to the operation of its interface. -/
theorem descriptorsRouteLikeCalls : Obligations.DescriptorsRouteLikeCalls := by
  refine ⟨fun _ _ hOff hw => decode_encodeGmbusRead hOff hw, fun _ _ v hOff hw => decode_encodeGmbusWrite v hOff hw,
    fun p off v => ?_, fun p off => decode_auxRead p _, decode_encode_hostInit, decode_encode_hostConfig,
    decode_encode_hostReset⟩
  rw [decode_encodeAuxWrite]
  exact congrArg _ (routeAuxWrite_lowOffset p off v)

/-! ### Every word decodes to a well-formed instruction -/

/-- The form that a key of the CMD table selects admits its operands (R99). -/
theorem wellFormed_commandForm (oldClr : Bool) (v : Word) : (commandForm oldClr v).wellFormed = true := by
  have hCycles : ∀ c : BitVec 3, c = 0 ∨ c = 4 ∨ c = 1 ∨ c = 3 ∨ c = 5 ∨ c = 7 ∨ c = 2 ∨ c = 6 := by decide
  unfold commandForm
  split_ifs with hOld hClr h0 h4 h1 h3 h5 h7 h2
  · exact hClr
  · exact congrArg not (Bool.eq_false_iff.2 hClr)
  · exact beq_iff_eq.2 h0
  · exact beq_iff_eq.2 h4
  · exact beq_iff_eq.2 h1
  · exact beq_iff_eq.2 h3
  · exact beq_iff_eq.2 h5
  · exact beq_iff_eq.2 h7
  · exact beq_iff_eq.2 h2
  · have h6 : v.extractLsb' 25 3 = 6 := by
      simpa only [h0, h4, h1, h3, h5, h7, h2, false_or] using hCycles (v.extractLsb' 25 3)
    exact beq_iff_eq.2 h6

theorem auxMot_eq (d1 : Word) : auxMot d1 = d1.getLsbD 30 := by
  simp [auxMot, auxOp]

/-- The class that a key of the AUXREQ table selects admits its operands (R97). -/
theorem wellFormed_auxClass (p : Port) (v d1 : Word) : (auxClass 0x50 p v d1).wellFormed = true := by
  have hEdid : BitVec.setWidth 16 (0x50 : BitVec 7) = 0x50#16 := rfl
  unfold auxClass
  rw [hEdid]
  split_ifs <;> grind [Instr.wellFormed, isBare, isLong, auxTrigger, bit, auxLen, auxMot_eq, auxIsRead_eq, auxAddr]

theorem cmdKey_getLsbD_setWidth (key : BitVec 33) : cmdKey (key.getLsbD 32) (key.setWidth 32) = key := by
  refine BitVec.eq_of_getLsbD_eq fun i hi => ?_
  rw [getLsbD_cmdKey, BitVec.getLsbD_ofBool, BitVec.getLsbD_setWidth]
  by_cases hLow : i < 32
  · simp [hLow]
  · obtain rfl : i = 32 := by omega
    simp

theorem auxKey_extractLsb'_setWidth (key : BitVec 64) : auxKey (key.extractLsb' 32 32) (key.setWidth 32) = key := by
  refine BitVec.eq_of_getLsbD_eq fun i hi => ?_
  rw [getLsbD_auxKey, BitVec.getLsbD_extractLsb', BitVec.getLsbD_setWidth]
  grind

/-- Settles O2: a descriptor by its fields, a key by the form or the class that it selects. -/
theorem everyWordDecodesWellFormed : Obligations.EveryWordDecodesWellFormed := by
  intro c
  cases c with
  | access d ops => exact ⟨_, rfl, wellFormed_decodeAccess d ops⟩
  | command key =>
    rw [← cmdKey_getLsbD_setWidth key]
    exact ⟨_, commandRowsSelectForms _ _, wellFormed_commandForm _ _⟩
  | auxRequest key p =>
    rw [← auxKey_extractLsb'_setWidth key]
    exact ⟨_, auxRowsSelectClasses p _ _, wellFormed_auxClass p _ _⟩

/-! ### Decoding an encoded instruction gives it back -/

theorem widthOk_iff {w : Nat} : widthOk w = true ↔ w = 1 ∨ w = 2 ∨ w = 4 ∨ w = 8 := by
  simp [widthOk, or_assoc]

/-- The rows of the CMD table that are taken while a software clear is armed (R99). -/
def isSwclrRow : CmdRow → Bool
  | .cmdSwclrHeld | .cmdSwclrDone => true
  | .cmdNocycle | .cmdStop | .cmdNidxWait | .cmdIdxWait | .cmdNidxStop | .cmdIdxStop | .cmdRsvd2 | .cmdRsvd6 => false

/-- A value that a CMD row admits, under the row's OLDCLR bit, selects that row. -/
theorem cmdRowOf_of_wellFormed {row : CmdRow} {v : Word} (h : (cmdInstr row v).wellFormed = true) :
    cmdRowOf (isSwclrRow row) (v.getLsbD 31) (v.extractLsb' 25 3) = row := by
  cases row
  case cmdSwclrHeld => rw [show v.getLsbD 31 = true from h]; rfl
  case cmdSwclrDone => rw [show v.getLsbD 31 = false from Bool.not_inj (y := false) h]; rfl
  all_goals rw [show v.extractLsb' 25 3 = _ from beq_iff_eq.1 h]; rfl

theorem decode_cmdKey_of_wellFormed {row : CmdRow} {v : Word} (h : (cmdInstr row v).wellFormed = true) :
    decode (.command (cmdKey (isSwclrRow row) v)) = .ok (cmdInstr row v) := by
  rw [commandRowsSelectForms, ← cmdInstr_cmdRowOf, cmdRowOf_of_wellFormed h]

/-- A request that an AUXREQ row admits selects that row. -/
theorem row_auxConditions_of_wellFormed {row : AuxRow} {p : Port} {v d1 : Word}
    (h : (auxInstr row p v d1).wellFormed = true) : (auxConditions v d1).row = row := by
  have hTrigger : auxTrigger v = v.getLsbD 31 := rfl
  cases row <;>
    simp only [auxInstr, Instr.wellFormed, isBare, isLong, hTrigger, auxLen, auxAddr, auxMot_eq, auxIsRead_eq] at h <;>
    grind [AuxConditions.row, auxConditions]

theorem decode_auxKey_of_wellFormed {row : AuxRow} {p : Port} {v d1 : Word}
    (h : (auxInstr row p v d1).wellFormed = true) :
    decode (.auxRequest (auxKey v d1) p) = .ok (auxInstr row p v d1) := by
  rw [decode_auxRequest_of_firstRow p v d1 (firstRow_auxKey v d1), row_auxConditions_of_wellFormed h]

/-- Settles O1: a descriptor by what its fields decode to, a form or a class by the row that admits its operands. -/
theorem decodeOfEncode : Obligations.DecodeOfEncode := by
  intro i hi
  cases i with
  | invalidAuxport d => rw [encode, decode, decodeAccess_badAuxPort _ hi]
  | invalidHostport d => rw [encode, decode, decodeAccess_badHostPort _ hi]
  | invalid d => rw [encode, decode, decodeAccess_nothing _ hi]
  | grStatus w => exact decode_encodeGmbusRead (by decide) (widthOk_iff.1 hi)
  | grData w => exact decode_encodeGmbusRead (by decide) (widthOk_iff.1 hi)
  | gwControl w v => exact decode_encodeGmbusWrite v (by decide) (widthOk_iff.1 hi)
  | gwCommand w v => exact decode_encodeGmbusWrite v (by decide) (widthOk_iff.1 hi)
  | gwStatus w v => exact decode_encodeGmbusWrite v (by decide) (widthOk_iff.1 hi)
  | gwData w v => exact decode_encodeGmbusWrite v (by decide) (widthOk_iff.1 hi)
  | grPass off w =>
    simp only [Instr.wellFormed, offsetOk, Bool.and_eq_true, decide_eq_true_eq, bne_iff_ne] at hi
    obtain ⟨⟨⟨hw, hOff⟩, hStatus⟩, hData⟩ := hi
    rw [encode, decode_encodeGmbusRead hOff (widthOk_iff.1 hw), routeGmbusRead, if_neg hStatus, if_neg hData]
  | gwPass off w v =>
    simp only [Instr.wellFormed, offsetOk, Bool.and_eq_true, decide_eq_true_eq, bne_iff_ne] at hi
    obtain ⟨⟨⟨⟨⟨hw, hOff⟩, hControl⟩, hCommand⟩, hStatus⟩, hData⟩ := hi
    rw [encode, decode_encodeGmbusWrite v hOff (widthOk_iff.1 hw), routeGmbusWrite, if_neg hControl, if_neg hCommand,
      if_neg hStatus, if_neg hData]
  | awCtl p v => exact decode_encodeAuxWrite p 0x10 v
  | awData1 p v => exact decode_encodeAuxWrite p 0x14 v
  | awData2 p v => exact decode_encodeAuxWrite p 0x18 v
  | awData3 p v => exact decode_encodeAuxWrite p 0x1C v
  | awData4 p v => exact decode_encodeAuxWrite p 0x20 v
  | awData5 p v => exact decode_encodeAuxWrite p 0x24 v
  | awBadoff p off v =>
    have hNone : auxRegister off = none := Option.isNone_iff_eq_none.1 hi
    rw [encode, decode_encodeAuxWrite, routeAuxWrite, auxLowOffset_setWidth, hNone]
  | ar p off => exact decode_auxRead p off
  | hostInit p => exact decode_encode_hostInit p
  | hostConfig p mon dp edid => exact decode_encode_hostConfig p mon dp edid
  | hostReset => exact decode_encode_hostReset
  | cmdSwclrHeld v => exact decode_cmdKey_of_wellFormed (row := .cmdSwclrHeld) hi
  | cmdSwclrDone v => exact decode_cmdKey_of_wellFormed (row := .cmdSwclrDone) hi
  | cmdNocycle v => exact decode_cmdKey_of_wellFormed (row := .cmdNocycle) hi
  | cmdStop v => exact decode_cmdKey_of_wellFormed (row := .cmdStop) hi
  | cmdNidxWait v => exact decode_cmdKey_of_wellFormed (row := .cmdNidxWait) hi
  | cmdIdxWait v => exact decode_cmdKey_of_wellFormed (row := .cmdIdxWait) hi
  | cmdNidxStop v => exact decode_cmdKey_of_wellFormed (row := .cmdNidxStop) hi
  | cmdIdxStop v => exact decode_cmdKey_of_wellFormed (row := .cmdIdxStop) hi
  | cmdRsvd2 v => exact decode_cmdKey_of_wellFormed (row := .cmdRsvd2) hi
  | cmdRsvd6 v => exact decode_cmdKey_of_wellFormed (row := .cmdRsvd6) hi
  | auxreqClear p v d1 => exact decode_auxKey_of_wellFormed (row := .auxreqClear) hi
  | auxreqStop p v d1 => exact decode_auxKey_of_wellFormed (row := .auxreqStop) hi
  | auxreqAddr0 p v d1 => exact decode_auxKey_of_wellFormed (row := .auxreqAddr0) hi
  | auxreqStartEdid p v d1 => exact decode_auxKey_of_wellFormed (row := .auxreqStartEdid) hi
  | auxreqStartOther p v d1 => exact decode_auxKey_of_wellFormed (row := .auxreqStartOther) hi
  | auxreqSeek p v d1 => exact decode_auxKey_of_wellFormed (row := .auxreqSeek) hi
  | auxreqWriteOther p v d1 => exact decode_auxKey_of_wellFormed (row := .auxreqWriteOther) hi
  | auxreqRead p v d1 => exact decode_auxKey_of_wellFormed (row := .auxreqRead) hi
  | auxreqReadBadlen p v d1 => exact decode_auxKey_of_wellFormed (row := .auxreqReadBadlen) hi

/-- Settles O6: seven concrete words, run through the table. -/
theorem sampleWordsDecode : Obligations.SampleWordsDecode :=
  ⟨rfl, rfl, rfl, rfl, rfl, rfl, rfl⟩

end Sys2Proof
end

section
/-! PROOFS. The controller reset and the two writes that do it (R141 to R144, R153), and the register reset of the host
(R239). -/

namespace Sys2Proof.Machine

/-- A controller reset in the terms of the statements: STATUS and the transports, for a port or for none (R143). -/
theorem controllerResetCore_eq (q : Option Port) (s : State) :
    controllerResetCore q s = { s with
      gmbus := { s.gmbus with status := statusAfterReset (gmbusAdmits s q) s.gmbus.status }
      transport := resetTransports (gmbusAdmits s q) q } := by
  cases q <;> rfl

theorem getLsbD_statusAfterReset_eq (admitted : Bool) (st : Word) (i : Nat) :
    (statusAfterReset admitted st).getLsbD i = resetStatusBit admitted st i := by
  rw [getLsbD_statusAfterReset, resetStatusBit]
  split_ifs <;> first | rfl | omega

/-- The selector of a CONTROL write is read from the value before it is cut to the register (R84). -/
theorem pinSelector_setWidth (v : BitVec 64) : pinSelector (v.setWidth 32) = v.extractLsb' 0 3 := by
  refine BitVec.eq_of_getLsbD_eq fun i hi => ?_
  rw [pinSelector, BitVec.getLsbD_extractLsb', BitVec.getLsbD_extractLsb', BitVec.getLsbD_setWidth]
  have hLow : i < 32 := by omega
  simp [hLow]

/-- Settles O21: the latch of the value and then the reset for the selected port. -/
theorem controlWriteSelectsPort : Obligations.ControlWriteSelectsPort := by
  intro s v q hq
  have hWrite : controlWrite (v.setWidth 32) s.beginStep =
      controllerResetCore (some q) (s.beginStep.setControl (v.setWidth 32)) := by
    simp only [controlWrite, pinSelector_setWidth, State.beginStep_params, hq]
  refine ⟨_, gwControl_next v s (by decide), fun i _ => ?_, ?_⟩
  · rw [hWrite, controllerResetCore_eq]
    exact getLsbD_statusAfterReset_eq _ _ i
  · rw [hWrite, controllerResetCore_eq]
    rfl

/-- Settles O22: the event, and the latch where the policy asks for it. -/
theorem controlWriteUnresolved : Obligations.ControlWriteUnresolved := by
  intro s v hNone
  rw [gwControl_next v s (by decide)]
  simp only [controlWrite, pinSelector_setWidth, State.beginStep_params, hNone]
  cases s.params.controlLatchUnresolved <;> rfl

/-- Settles O24: the completion is a controller reset for the active port between two writes of single bits. -/
theorem softwareClearCompletes : Obligations.SoftwareClearCompletes := by
  intro s v
  have hReset := controllerResetCore_eq s.activePort (s.beginStep.setCommand (setBit s.gmbus.command 31 false))
  refine ⟨_, rfl, fun i _ => ?_, fun i _ => ?_, ?_⟩
  · rw [hReset]
    exact getLsbD_setBit s.gmbus.command 31 i false (by decide)
  · rw [hReset]
    exact (getLsbD_statusClearInt _ i).trans
      (congrArg (ite (i = 12) false) (getLsbD_statusAfterReset_eq _ _ i))
  · rw [hReset]
    rfl

/-- Settles O49: every register of every bank is filled with the one value. -/
theorem controllerResetClears : Obligations.ControllerResetClears := by
  intro s
  refine ⟨_, rfl, fun r => ?_, fun p r => ?_, fun p => ?_, rfl⟩
  · cases r <;> rfl
  · cases p <;> cases r <;> rfl
  · exact PortMap.get_fill Transport.zero p

end Sys2Proof.Machine
end

section
/-! PROOFS. The forms of a COMMAND write (R99, R150 to R162): what their cycle effects add to the fields of a decoded
write, and the form that a COMMAND write runs. -/

namespace Sys2Proof.Machine

/-! ### Cycle effects -/

theorem activePort_commandFields (v : Word) (s : State) : (commandFields v s).activePort = s.activePort := by
  rw [commandFields_eq]
  rfl

/-- An update of the active port changes the transports alone. -/
theorem State.updActive_eq (s : State) (f : Transport → Transport) :
    s.updActive f = { s with transport := (s.updActive f).transport } := by
  cases h : s.activePort with
  | some p => rw [State.updActive_of_some h]; rfl
  | none => rw [State.updActive_of_none h]

@[simp] theorem State.updActive_gmbus (s : State) (f : Transport → Transport) : (s.updActive f).gmbus = s.gmbus := by
  rw [State.updActive_eq]

/-- A cycle effect that changes the active port by `f` and sets ACTIVE to `x`, as the data cycles and a Stop do. -/
theorem commandFields_decoded_setActive (v : Word) (s : State) (f : Transport → Transport) (x : Bool) :
    CommandDecoded s
      ((((commandFields v s.beginStep).updActive f).setStatus
        (statusSetActive x (commandFields v s.beginStep).gmbus.status)).setCommand (cmdStrip v))
      v f (some x) [] where
  command i _ := getLsbD_cmdStrip v i
  status i _ := by
    simp only [State.setCommand_gmbus, State.setStatus_gmbus, getLsbD_statusSetActive, getLsbD_commandFields_status,
      State.beginStep_gmbus, Option.getD_some]
    split_ifs <;> first | rfl | omega
  path p h := by
    have hActive : (commandFields v s.beginStep).activePort = some p := (activePort_commandFields v _).trans h
    simp only [State.setCommand_transport, State.setStatus_transport, State.updActive_of_some hActive,
      State.updTransport_transport, commandFields_transport_some v (s := s.beginStep) h, PortMap.get_set_self,
      PortMap.set_set]
    rfl
  noPath h := by
    have hActive : (commandFields v s.beginStep).activePort = none := (activePort_commandFields v _).trans h
    simp only [State.setCommand_transport, State.setStatus_transport, State.updActive_of_none hActive]
    exact commandFields_transport_none v h
  response := by
    rw [State.updActive_eq]
    exact (commandFields_response v s.beginStep).trans (by rw [List.append_nil]; rfl)
  frame := by
    rw [State.updActive_eq, commandFields_eq]
    rfl

/-- Settles O26: the four forms are one decoded write, whose cycle effect is the data cycle. -/
theorem dataCyclesEnterData : Obligations.DataCyclesEnterData := by
  intro s v i hi
  have hExec : exec i s = commandWrite v dataCycle s := by
    simp only [List.mem_cons, List.not_mem_nil, or_false] at hi
    obtain rfl | rfl | rfl | rfl := hi <;> rfl
  refine ⟨_, hExec, ?_⟩
  rw [dataCycle, State.updActive_gmbus]
  exact commandFields_decoded_setActive v s _ true

/-- Settles O27: the fields and the latch, and one event more. -/
theorem reservedCyclesLogged : Obligations.ReservedCyclesLogged := by
  intro s v ic hic
  have hExec : exec ic.1 s = commandWrite v (reservedCycle ic.2) s := by
    simp only [List.mem_cons, List.not_mem_nil, or_false] at hic
    obtain rfl | rfl := hic <;> rfl
  have h := commandFields_decoded v s
  refine ⟨_, hExec, h.command, h.status, h.path, h.noPath, ?_, ?_⟩
  · simp only [reservedCycle, State.setCommand_response, State.log_response, commandFields_response]
    rfl
  · rw [commandFields_eq]
    rfl

/-- The COMMAND that a Stop tests is the one latched before it. -/
theorem commandFields_command (v : Word) (s : State) : (commandFields v s).gmbus.command = s.gmbus.command := by
  rw [commandFields_eq]

/-- Settles O28: the gate reads the COMMAND that the fields have not latched yet. -/
theorem stopGatedByLatchedCycle : Obligations.StopGatedByLatchedCycle := by
  intro s v
  refine ⟨_, exec_cmdStop v s, fun hCycle => ?_, fun hCycle => ?_⟩
  · have hGate : cmdCycle (commandFields v s.beginStep).gmbus.command ≠ 0 := by
      rw [commandFields_command]; exact hCycle
    rw [stopCycle, if_pos hGate]
    simp only [State.updActive_gmbus]
    exact commandFields_decoded_setActive v s (fun _ => Transport.zero) false
  · have hGate : ¬ cmdCycle (commandFields v s.beginStep).gmbus.command ≠ 0 := by
      rw [commandFields_command]; exact not_not.2 hCycle
    rw [stopCycle, if_neg hGate]
    exact commandFields_decoded v s

/-! ### The form of a COMMAND write -/

/-- A COMMAND write runs the form that the latched bit 31 and the written value select (R99, R150). -/
theorem execCommandForm_eq (v : Word) (s : State) :
    execCommandForm v s = exec (commandForm (s.gmbus.command.getLsbD 31) v) s := by
  have hCycles : ∀ c : BitVec 3, c = 0 ∨ c = 1 ∨ c = 2 ∨ c = 3 ∨ c = 4 ∨ c = 5 ∨ c = 6 ∨ c = 7 := by decide
  have hClr : cmdClr s.gmbus.command = s.gmbus.command.getLsbD 31 := rfl
  rw [execCommandForm, commandForm, cmdCycle_cmdStrip, hClr]
  cases s.gmbus.command.getLsbD 31 with
  | true => cases hv : v.getLsbD 31 <;> simp only [cmdClr, bit, hv] <;> rfl
  | false => obtain h | h | h | h | h | h | h | h := hCycles (v.extractLsb' 25 3) <;> rw [h] <;> rfl

theorem gwCommand_form (v : BitVec 64) (s : State) :
    exec (.gwCommand 4 v) s = exec (commandForm (s.gmbus.command.getLsbD 31) (v.setWidth 32)) s := by
  rw [gwCommand_next v s (by decide), execCommandForm_eq]

/-- What the cycle of a decoded COMMAND write does to the active port (R156, R158 to R160). -/
inductive CycleAction : (Transport → Transport) → Prop where
  | stay : CycleAction fun x => x
  | enterData : CycleAction fun x => { x with gmbus := { x.gmbus with phase := .data } }
  | release : CycleAction fun _ => Transport.zero

/-- `i` is a decoded COMMAND write of `v` at `s`: it completes, and one of the cycle actions is done. -/
def IsDecodedWrite (i : Instr) (v : Word) (s : State) : Prop :=
  ∃ t f active more, exec i s = .next t ∧ CommandDecoded s t v f active more ∧ CycleAction f

theorem cmdNocycle_decoded (v : Word) (s : State) : IsDecodedWrite (.cmdNocycle v) v s := by
  obtain ⟨t, ht, h⟩ := noCycleStoresFields s v
  exact ⟨t, _, _, _, ht, h, .stay⟩

theorem cmdStop_decoded (v : Word) (s : State) : IsDecodedWrite (.cmdStop v) v s := by
  obtain ⟨t, ht, hAct, hIdle⟩ := stopGatedByLatchedCycle s v
  by_cases hCycle : s.gmbus.command.extractLsb' 25 3 = 0
  · exact ⟨t, _, _, _, ht, hIdle hCycle, .stay⟩
  · exact ⟨t, _, _, _, ht, hAct hCycle, .release⟩

theorem dataCycle_decoded {i : Instr} {v : Word} (s : State)
    (h : i ∈ [Instr.cmdNidxWait v, .cmdIdxWait v, .cmdNidxStop v, .cmdIdxStop v]) : IsDecodedWrite i v s := by
  obtain ⟨t, ht, hd⟩ := dataCyclesEnterData s v i h
  exact ⟨t, _, _, _, ht, hd, .enterData⟩

theorem reservedCycle_decoded {ic : Instr × BitVec 3} {v : Word} (s : State)
    (h : ic ∈ [(Instr.cmdRsvd2 v, 2#3), (Instr.cmdRsvd6 v, 6#3)]) : IsDecodedWrite ic.1 v s := by
  obtain ⟨t, ht, hd⟩ := reservedCyclesLogged s v ic h
  exact ⟨t, _, _, _, ht, hd, .stay⟩

/-- Every form that is selected while no software clear is armed is a decoded write. -/
theorem commandForm_decoded (v : Word) (s : State) : IsDecodedWrite (commandForm false v) v s := by
  rw [commandForm, if_neg Bool.false_ne_true]
  split_ifs
  · exact cmdNocycle_decoded v s
  · exact cmdStop_decoded v s
  · exact dataCycle_decoded s (by simp)
  · exact dataCycle_decoded s (by simp)
  · exact dataCycle_decoded s (by simp)
  · exact dataCycle_decoded s (by simp)
  · exact reservedCycle_decoded (ic := (.cmdRsvd2 v, 2)) s (by simp)
  · exact reservedCycle_decoded (ic := (.cmdRsvd6 v, 6)) s (by simp)

/-- Every form of a COMMAND write completes with outcome Ok. -/
theorem exec_commandForm_next (oldClr : Bool) (v : Word) (s : State) :
    ∃ t, exec (commandForm oldClr v) s = .next t ∧ t.response.outcome = .ok := by
  cases oldClr with
  | true =>
    rw [commandForm, if_pos rfl]
    split_ifs
    · exact ⟨_, rfl, rfl⟩
    · obtain ⟨t, ht, -, -, hFrame⟩ := softwareClearCompletes s v
      exact ⟨t, ht, by rw [hFrame]; rfl⟩
  | false =>
    obtain ⟨t, f, active, more, ht, hd, -⟩ := commandForm_decoded v s
    exact ⟨t, ht, congrArg Response.outcome hd.response⟩

/-- Settles O23: the write and the selected form are the same step, and a form always completes. -/
theorem commandWriteRunsSelectedForm : Obligations.CommandWriteRunsSelectedForm := by
  intro s v
  obtain ⟨t, ht, -⟩ := exec_commandForm_next (s.gmbus.command.getLsbD 31) (v.setWidth 32) s
  exact ⟨t, (gwCommand_form v s).trans ht, ht⟩

/-- Settles O39: neither changes more than the response of a begun step. -/
theorem ignoredWritesChangeNothing : Obligations.IgnoredWritesChangeNothing := by
  intro s p v d1 i hi
  simp only [List.mem_cons, List.not_mem_nil, or_false] at hi
  obtain rfl | rfl := hi <;> rfl

/-! ### The composed COMMAND word -/

/-- The word that `gmbus.cmd` composes, as its fields side by side (R85, R104). -/
theorem gmbusCmdWord_eq (cyc : BitVec 3) (cnt : BitVec 9) (idx : BitVec 8) (addr : BitVec 7) (dir : Bool) :
    gmbusCmdWord cyc cnt idx addr dir =
      0#1 ++ 1#1 ++ 0#2 ++ cyc ++ cnt ++ idx ++ addr ++ BitVec.ofBool dir := by
  refine BitVec.eq_of_getLsbD_eq fun i hi => ?_
  simp only [gmbusCmdWord, BitVec.getLsbD_or, BitVec.getLsbD_append, BitVec.getLsbD_shiftLeft, BitVec.getLsbD_setWidth]
  interval_cases i <;> simp

/-- Settles O7: each field is read at the place where the word holds it. -/
theorem composedCommandHasItsFields : Obligations.ComposedCommandHasItsFields := by
  intro cyc cnt idx addr dir
  have hCount : (gmbusCmdWord cyc cnt idx addr dir).extractLsb' 16 9 = cnt := by
    refine BitVec.eq_of_getLsbD_eq fun i hi => ?_
    simp only [gmbusCmdWord_eq, BitVec.getLsbD_extractLsb', BitVec.getLsbD_append]
    grind
  refine ⟨?cycle, congrArg (BitVec.setWidth 16) hCount, ?index, ?addr, ?dir, ?rdy, ?clr⟩
  case dir => simp only [cmdDir, bit, gmbusCmdWord_eq, BitVec.getLsbD_append]; cases dir <;> rfl
  case rdy => simp only [cmdRdy, bit, gmbusCmdWord_eq, BitVec.getLsbD_append]; rfl
  case clr => simp only [cmdClr, bit, gmbusCmdWord_eq, BitVec.getLsbD_append]; rfl
  all_goals
    refine BitVec.eq_of_getLsbD_eq fun i hi => ?_
    simp only [cmdCycle, cmdIndex, cmdAddr, gmbusCmdWord_eq, BitVec.getLsbD_extractLsb', BitVec.getLsbD_append]
    grind

end Sys2Proof.Machine
end

section
/-! PROOFS. The GMBUS window: the accesses outside it (R68), its bytes (R21, R60, R64), STATUS reads (R170) and the
passthrough (R147, R148). -/

namespace Sys2Proof.Machine

/-! ### Accesses outside the bank -/

/-- The window check follows the malformed check in either direction (R259). -/
theorem admission_of_not_insideBank {off w : Nat} (dir : Direction) (hw : wellAligned off w) (h : ¬ insideBank off w) :
    admission dir off w = some (.refused .outsideWindow) := by
  have hInside : insideWindow off w = false := Bool.eq_false_iff.2 fun hIn => h (insideWindow_eq_true.1 hIn)
  rw [admission, malformed_eq_false.2 hw, hInside]
  rfl

/-- Settles O12: admission fails its second check, and a refused access changes the response alone. -/
theorem outsideWindowRefused : Obligations.OutsideWindowRefused := by
  intro s off w v hw h
  exact ⟨exec_routeGmbusRead_refused s (admission_of_not_insideBank .read hw h),
    exec_routeGmbusWrite_refused v s (admission_of_not_insideBank .write hw h)⟩

/-- An access that passes the first two checks is admitted exactly where the table of R69 admits it. -/
theorem admission_of_insideBank {off w : Nat} (dir : Direction) (hw : wellAligned off w) (h : insideBank off w) :
    admission dir off w = if admittedWidth dir off w = true then none else some (.refused .specialWidth) := by
  rw [admission, malformed_eq_false.2 hw, insideWindow_eq_true.2 h]
  cases admittedWidth dir off w <;> rfl

/-! ### The bytes of the bank -/

/-- Settles O18: the register at each offset, and none elsewhere. -/
theorem bankIsSixRegisters : Obligations.BankIsSixRegisters := by
  constructor
  · intro g r j hj
    have hReg : bankRegAt (r.offset + j) = some r := by
      have hDiv : (r.offset + j) / 4 = r.offset / 4 := by cases r <;> simp only [BankReg.offset] <;> omega
      rw [bankRegAt, hDiv]
      cases r <;> rfl
    have hMod : (r.offset + j) % 4 = j := by cases r <;> simp only [BankReg.offset] <;> omega
    rw [bankByte, hReg, hMod]
    rfl
  · intro g a ha
    have hNone : bankRegAt a = none := by
      unfold bankRegAt
      split <;> first | rfl | omega
    rw [bankByte, hNone]
    rfl

/-! ### Passthrough -/

/-- Settles O16: the access is admitted, and `MemRead` returns the bytes. -/
theorem passthroughReadReturnsBytes : Obligations.PassthroughReadReturnsBytes := by
  intro s off w hw hIn hOff
  have hWidth : w ≤ 8 := by obtain ⟨rfl | rfl | rfl | rfl, -⟩ := hw <;> decide
  have hTable : admittedWidth .read off w = true := by
    simp only [admittedWidth, readAdmitted]
    grind
  have hAdmitted : admission .read off w = none := by rw [admission_of_insideBank .read hw hIn, if_pos hTable]
  have hSmall := memRead_lt s.gmbus off w hWidth
  refine ⟨memRead s.gmbus off w, ?_, fun j hj => ?_, hSmall⟩
  · have hTrunc : truncTo w (memRead s.gmbus off w) = memRead s.gmbus off w := by
      rw [truncTo_eq, Nat.mod_eq_of_lt hSmall, BitVec.ofNat_toNat, BitVec.setWidth_eq]
    rw [grPass_next s hAdmitted, State.returnValue, hTrunc]
    rfl
  · rw [memRead_byte s.gmbus off w j hj hWidth]
    obtain ⟨b, hb⟩ := Option.isSome_iff_exists.1 (bankByte_isSome s.gmbus (insideWindow_eq_true.2 hIn) hj)
    rw [hb]
    rfl

/-- Settles O17: the access is admitted, and `MemWrite` stores the bytes. -/
theorem passthroughWriteStoresBytes : Obligations.PassthroughWriteStoresBytes := by
  intro s off w v hw hIn hOff
  have hTable : admittedWidth .write off w = true := by
    simp only [admittedWidth, writeAdmitted]
    grind
  have hAdmitted : admission .write off w = none := by rw [admission_of_insideBank .write hw hIn, if_pos hTable]
  refine ⟨_, gwPass_next v s hAdmitted, fun j hj => ?_, fun a ha => ?_, rfl⟩
  · have hAt : off ≤ off + j ∧ off + j < off + w := by omega
    obtain ⟨b, hb⟩ := Option.isSome_iff_exists.1 (bankByte_isSome s.gmbus (insideWindow_eq_true.2 hIn) hj)
    rw [State.setGmbus_gmbus, bankByte_memWrite, if_pos hAt, hb, Nat.add_sub_cancel_left]
    rfl
  · rw [State.setGmbus_gmbus, bankByte_memWrite, if_neg ha]

/-! ### STATUS reads -/

/-- A guest read of STATUS sets bit 15 (R170). -/
theorem statusAfterRead_eq (st : Word) : statusAfterRead st = st ||| 0x8000#32 := by
  refine BitVec.eq_of_getLsbD_eq fun i hi => ?_
  have hBit : (0x8000#32).getLsbD i = decide (i = 15) := getLsbD_one_shl 15 i (by decide)
  rw [getLsbD_statusAfterRead, BitVec.getLsbD_or, hBit]
  split_ifs with h <;> simp [h]

theorem truncTo_setWidth (w : Nat) (x : Word) :
    truncTo w (x.setWidth 64) = BitVec.ofNat 64 (x.toNat % 2 ^ (8 * w)) := by
  rw [truncTo_eq, BitVec.toNat_setWidth_of_le (by decide)]

/-- Settles O14: the read is admitted, bit 15 is set, and the policy chooses the value. -/
theorem statusReadSetsInuse : Obligations.StatusReadSetsInuse := by
  intro s w hw
  have hAdmitted : admission .read 0x08 w = none := by obtain rfl | rfl | rfl := hw <;> decide
  rw [grStatus_next s hAdmitted]
  cases hPolicy : s.params.inuseReadReturns with
  | old =>
    simp only [statusRead, State.beginStep_params, State.beginStep_gmbus, hPolicy, statusAfterRead_eq,
      State.returnValue, truncTo_setWidth]
    rfl
  | new =>
    simp only [statusRead, State.beginStep_params, State.beginStep_gmbus, hPolicy, statusAfterRead_eq,
      State.returnValue, truncTo_setWidth]
    rfl

/-! ### The pin tables -/

/-- Settles O20: the eight selectors of each generation. -/
theorem defaultPinTables : Obligations.DefaultPinTables := by
  unfold Obligations.DefaultPinTables
  decide

end Sys2Proof.Machine
end

section
/-! PROOFS. DATA reads (R163 to R168): the ones that return the latched value, and the batched read through the EDID
cursor (R230, R231). -/

namespace Sys2Proof.Machine

/-! ### Reads that return the latched value -/

/-- A DATA read with the direction bit clear returns the latched value, whatever else the state is (R163). -/
theorem dataRead_wrongDirection {s : State} (w : Nat) (hDir : s.gmbus.command.getLsbD 0 = false) :
    dataRead w s.beginStep =
      { s with response := okRead w s.gmbus.data.toNat [.protocolViolation .dataReadNotReadDirection] } := by
  have hRead : cmdDir s.gmbus.command = false := hDir
  have hStale : dataRead w s.beginStep =
      returnData w (s.beginStep.log (.protocolViolation .dataReadNotReadDirection)) := by
    simp only [dataRead, State.beginStep_gmbus, hRead, Bool.not_false, if_true]
  rw [hStale, returnData_eq w rfl]
  rfl

/-- With the direction set and no active port it returns the latched value too (R168). -/
theorem dataRead_noActivePort {s : State} (w : Nat) (hDir : s.gmbus.command.getLsbD 0 = true)
    (hPort : s.activePort = none) :
    dataRead w s.beginStep = { s with response := okRead w s.gmbus.data.toNat [.noActivePort] } := by
  have hRead : cmdDir s.gmbus.command = true := hDir
  have hStale : dataRead w s.beginStep = returnData w (s.beginStep.log .noActivePort) := by
    simp only [dataRead, State.beginStep_gmbus, State.activePort_beginStep, hRead, hPort, Bool.not_true,
      Bool.false_eq_true, if_false]
  rw [hStale, returnData_eq w rfl]
  rfl

/-- Settles O29: the read is admitted, and the direction is tested before anything else of the state. -/
theorem dataReadWrongDirection : Obligations.DataReadWrongDirection :=
  fun s w hw hDir => (grData_next s (admission_data .read hw)).trans (congrArg _ (dataRead_wrongDirection w hDir))

/-- Settles O30: the read is admitted, and the resolver is asked before the transport. -/
theorem dataReadNoActivePort : Obligations.DataReadNoActivePort :=
  fun s w hw hDir hPort =>
    (grData_next s (admission_data .read hw)).trans (congrArg _ (dataRead_noActivePort w hDir hPort))

/-! ### The EDID cursor -/

/-- `s` after the cursor of `p` has delivered `m` bytes and logged `events`. -/
def pulled (p : Port) (m : Nat) (events : List Event) (s : State) : State :=
  { s with
    transport := s.transport.set p { s.transport.get p with readCursor := (s.transport.get p).readCursor + m }
    response := { s.response with events := s.response.events ++ events } }

theorem pulled_zero (p : Port) (s : State) : pulled p 0 [] s = s := by
  rw [pulled, List.append_nil]
  exact congrArg (fun m => { s with transport := m }) (PortMap.set_get_self s.transport p)

/-- Two pulls in a row are one. -/
theorem pulled_pulled (p : Port) (m n : Nat) (ev ew : List Event) (s : State) :
    pulled p n ew (pulled p m ev s) = pulled p (m + n) (ev ++ ew) s := by
  simp [pulled, Nat.add_assoc]

/-- A log is a pull of no byte. -/
theorem log_eq_pulled (p : Port) (ev : Event) (s : State) : s.log ev = pulled p 0 [ev] s :=
  congrArg (fun m => { s.log ev with transport := m }) (PortMap.set_get_self s.transport p).symm

/-- The cursor refuses for the reasons that do not depend on its position, and then for its position (R230). -/
theorem nextByteViolation_eq (s : State) (p : Port) :
    nextByteViolation s p = (refusal s p).or
      (if s.edidLen.get p ≤ (s.transport.get p).readCursor then some .outOfRange else none) := by
  simp only [nextByteViolation, refusal]
  grind

theorem serving_iff_refusal (s : State) (p : Port) : serving s p ↔ refusal s p = none := by
  unfold serving refusal
  grind

/-- A `next_byte` that is refused returns 0x00, logs the reason and does not move (R230, R231). -/
theorem nextByte_of_violation {s : State} {p : Port} {kind : Violation} (h : nextByteViolation s p = some kind) :
    nextByte p s = (0, pulled p 0 [.protocolViolation kind] s) := by
  rw [nextByte, h]
  exact congrArg ((0 : Byte), ·) (log_eq_pulled p _ s)

/-- A pull of one byte more is the next byte and then the rest. -/
theorem pullBytes_succ {p : Port} {s t : State} {b : Byte} (k : Nat) (h : nextByte p s = (b, t)) :
    pullBytes p (k + 1) s = (b :: (pullBytes p k t).1, (pullBytes p k t).2) := by
  rw [pullBytes, h]

/-- A cursor that refuses delivers zeros, logs the reason each time and does not move (R230, R231). -/
theorem pullBytes_refused {s : State} {p : Port} {kind : Violation} (k : Nat)
    (h : nextByteViolation s p = some kind) :
    pullBytes p k s =
      (List.replicate k 0, pulled p 0 (List.replicate k (.protocolViolation kind)) s) := by
  induction k generalizing s with
  | zero => simp [pullBytes, pulled_zero]
  | succ k ih =>
    have hStill : nextByteViolation (pulled p 0 [.protocolViolation kind] s) p = some kind := by
      rw [← log_eq_pulled]
      exact h
    rw [pullBytes_succ k (nextByte_of_violation h), ih hStill]
    simp only [pulled_pulled, List.replicate_succ, List.singleton_append]

/-- A serving port whose table entry holds `bytes`, as a batched read finds it. -/
structure Serves (s : State) (p : Port) (bytes : List Byte) : Prop where
  serving : serving s p
  edid    : (s.cfg.get p).edid = some bytes
  length  : s.edidLen.get p = bytes.length

/-- A pull from a serving port leaves it serving. -/
theorem Serves.pulled {s : State} {p : Port} {bytes : List Byte} (h : Serves s p bytes) (m : Nat) (ev : List Event) :
    Serves (pulled p m ev s) p bytes := by
  obtain ⟨hServing, hEdid, hLength⟩ := h
  refine ⟨?_, hEdid, hLength⟩
  simpa [Machine.pulled, Machine.serving] using hServing

/-- A `next_byte` that nothing refuses delivers the byte at the cursor (R230). -/
theorem nextByte_of_ok {s : State} {p : Port} (h : nextByteViolation s p = none) :
    nextByte p s = (edidByte s p (s.transport.get p).readCursor, pulled p 1 [] s) := by
  rw [nextByte, h]
  simp only [pulled, List.append_nil]
  rfl

/-- The byte at the cursor of a serving port. -/
theorem nextByte_of_serves {s : State} {p : Port} {bytes : List Byte} (h : Serves s p bytes)
    (hIn : (s.transport.get p).readCursor < bytes.length) :
    nextByte p s = (bytes[(s.transport.get p).readCursor], Machine.pulled p 1 [] s) := by
  have hOk : nextByteViolation s p = none := by
    rw [nextByteViolation_eq, (serving_iff_refusal s p).1 h.serving, h.length, if_neg (Nat.not_le.2 hIn)]
    rfl
  rw [nextByte_of_ok hOk]
  simp [edidByte, h.edid, hIn]

/-- The bytes that `k` pulls from position `c` of a buffer deliver: those of the buffer, then zeros (R165, R230). -/
def servedBytes (bytes : List Byte) (c k : Nat) : List Byte :=
  (bytes.drop c).take k ++ List.replicate (k - (bytes.length - c)) 0

theorem getElem?_servedBytes (bytes : List Byte) (c k j : Nat) :
    (servedBytes bytes c k)[j]? = if j < k then some (bytes[c + j]?.getD 0) else none := by
  rw [servedBytes, List.getElem?_append, List.length_take, List.length_drop, List.getElem?_take, List.getElem?_drop,
    List.getElem?_replicate]
  by_cases hIn : c + j < bytes.length
  · grind
  · grind

theorem servedBytes_succ {bytes : List Byte} {c : Nat} (k : Nat) (h : c < bytes.length) :
    servedBytes bytes c (k + 1) = bytes[c] :: servedBytes bytes (c + 1) k := by
  have hEnd : k + 1 - (bytes.length - c) = k - (bytes.length - (c + 1)) := by omega
  rw [servedBytes, List.drop_eq_getElem_cons h, List.take_succ_cons, hEnd]
  rfl

theorem servedBytes_of_length_le {bytes : List Byte} {c : Nat} (k : Nat) (h : bytes.length ≤ c) :
    servedBytes bytes c k = List.replicate k 0 := by
  rw [servedBytes, List.drop_of_length_le h, Nat.sub_eq_zero_of_le h]
  simp

/-- A pull of `k` bytes from a serving port: the bytes at the cursor, then a zero and an event for each one past the
end of the buffer (R165, R230). -/
theorem pullBytes_of_serves {s : State} {p : Port} {bytes : List Byte} (k : Nat) (h : Serves s p bytes) :
    pullBytes p k s =
      (servedBytes bytes (s.transport.get p).readCursor k,
        Machine.pulled p (min k (bytes.length - (s.transport.get p).readCursor))
          (List.replicate (k - (bytes.length - (s.transport.get p).readCursor)) (.protocolViolation .outOfRange)) s) := by
  induction k generalizing s with
  | zero => simp [pullBytes, pulled_zero, servedBytes]
  | succ k ih =>
    by_cases hIn : (s.transport.get p).readCursor < bytes.length
    · have hNext : ((Machine.pulled p 1 [] s).transport.get p).readCursor = (s.transport.get p).readCursor + 1 := by
        simp [Machine.pulled]
      have hEnd : k + 1 - (bytes.length - (s.transport.get p).readCursor) =
          k - (bytes.length - ((s.transport.get p).readCursor + 1)) := by omega
      have hMoved : 1 + min k (bytes.length - ((s.transport.get p).readCursor + 1)) =
          min (k + 1) (bytes.length - (s.transport.get p).readCursor) := by omega
      rw [pullBytes_succ k (nextByte_of_serves h hIn), ih (h.pulled 1 []), hNext, servedBytes_succ k hIn, pulled_pulled,
        List.nil_append, hEnd, hMoved]
    · have hPast : bytes.length ≤ (s.transport.get p).readCursor := Nat.not_lt.1 hIn
      have hRange : nextByteViolation s p = some .outOfRange := by
        rw [nextByteViolation_eq, (serving_iff_refusal s p).1 h.serving, h.length, if_pos hPast]
        rfl
      rw [pullBytes_refused (k + 1) hRange, servedBytes_of_length_le _ hPast, Nat.sub_eq_zero_of_le hPast]
      simp

/-! ### The batched read -/

/-- `s` after a batched DATA read of the active port `p` with `rem` bytes remaining that pulled `bs`, of which the
cursor delivered `m`, and logged `events` (R165 to R167). -/
def afterBatch (s : State) (p : Port) (w rem : Nat) (bs : List Byte) (m : Nat) (events : List Event) : State :=
  { s with
    gmbus := { s.gmbus with data := packData s.params.dataPartialUpper s.gmbus.data bs }
    transport := s.transport.set p
      (if rem ≤ 4 then Transport.zero
        else { s.transport.get p with readCursor := (s.transport.get p).readCursor + m })
    response := okRead w (packData s.params.dataPartialUpper s.gmbus.data bs).toNat events }

theorem batchedRead_eq {s : State} {p : Port} {w rem m : Nat} {bs : List Byte} {events : List Event}
    (h : pullBytes p (min rem 4) s.beginStep = (bs, pulled p m events s.beginStep)) :
    batchedRead p rem w s.beginStep = afterBatch s p w rem bs m events := by
  have hCount : (min (rem : Int) 4).toNat = min rem 4 := by omega
  have hLast : ((rem : Int) ≤ 4) = (rem ≤ 4) := by simp
  simp only [batchedRead, hCount, h, hLast, returnData, State.returnValue, truncTo_setWidth, afterBatch]
  by_cases hEnd : rem ≤ 4
  · simp only [if_pos hEnd, terminate, State.initTransport, State.updTransport_transport, State.setTransport]
    simp [pulled, State.updTransport, State.setTransport, State.setResponse, State.setData, State.beginStep,
      Response.empty, okRead]
  · simp only [if_neg hEnd]
    simp [pulled, State.setResponse, State.setData, State.beginStep, Response.empty, okRead]

/-- A DATA read of the active port with `rem > 0` bytes remaining is the batched read (R163 to R165). -/
theorem dataRead_batched {s : State} {p : Port} {w rem : Nat} (hDir : s.gmbus.command.getLsbD 0 = true)
    (hPort : s.activePort = some p)
    (hCount : (s.transport.get p).gmbus.totalByteCount.toNat = (s.transport.get p).readCursor + rem) (hPos : 0 < rem) :
    dataRead w s = batchedRead p rem w s := by
  have hRead : cmdDir s.gmbus.command = true := hDir
  have hRem : bytesRemaining (s.transport.get p) = rem := by rw [bytesRemaining, hCount]; omega
  have hSome : ¬ ((rem : Int) ≤ 0) := by omega
  simp only [dataRead, hRead, hPort, hRem, if_neg hSome, Bool.not_true, Bool.false_eq_true, if_false]

theorem grData_batched {s : State} {p : Port} {w rem m : Nat} {bs : List Byte} {events : List Event}
    (hw : narrowWidth w) (hDir : s.gmbus.command.getLsbD 0 = true) (hPort : s.activePort = some p)
    (hCount : (s.transport.get p).gmbus.totalByteCount.toNat = (s.transport.get p).readCursor + rem) (hPos : 0 < rem)
    (hPull : pullBytes p (min rem 4) s.beginStep = (bs, pulled p m events s.beginStep)) :
    exec (.grData w) s = .next (afterBatch s p w rem bs m events) := by
  rw [grData_next s (admission_data .read hw), dataRead_batched (s := s.beginStep) hDir hPort hCount hPos,
    batchedRead_eq hPull]

/-- The bytes of DATA after a batched read: those pulled, and above them those of the policy (R166). -/
theorem byte_afterBatch (s : State) (p : Port) (w rem : Nat) (bs : List Byte) (m : Nat) (events : List Event)
    {j : Nat} (hj : j < 4) :
    (afterBatch s p w rem bs m events).gmbus.data.extractLsb' (8 * j) 8 = bs.getD j (upperByte s j) := by
  have h := byteOf_packData s.params.dataPartialUpper s.gmbus.data bs j hj
  rw [upperByte]
  cases hPolicy : s.params.dataPartialUpper <;> rw [hPolicy] at h <;> simp only [afterBatch, hPolicy] <;> exact h

/-- Settles O33: the pull of a refusing cursor, and DATA filled with its zeros. -/
theorem dataReadRefusedByCursor : Obligations.DataReadRefusedByCursor := by
  rintro s w p kind rem k hw hDir hPort hRefusal hCount hPos rfl
  have hViolation : nextByteViolation s.beginStep p = some kind := by
    rw [nextByteViolation_eq, show refusal s.beginStep p = some kind from hRefusal]
    rfl
  have hExec := grData_batched hw hDir hPort hCount hPos (pullBytes_refused (min rem 4) hViolation)
  refine ⟨_, hExec, rfl, fun j hj => ?_, fun j hk hj => ?_, rfl⟩
  · rw [byte_afterBatch _ _ _ _ _ _ _ (by omega)]
    simp [List.getD, hj]
  · rw [byte_afterBatch _ _ _ _ _ _ _ hj]
    simp [List.getD, show ¬ j < min rem 4 by omega]

/-- Settles O32: the pull of a serving cursor, and DATA filled with its bytes. -/
theorem dataReadDeliversBytes : Obligations.DataReadDeliversBytes := by
  rintro s w p bytes rem k m hw hDir hPort hServing hEdid hLength hCount hPos rfl rfl
  have hServes : Serves s.beginStep p bytes := ⟨hServing, hEdid, hLength⟩
  have hExec := grData_batched hw hDir hPort hCount hPos (pullBytes_of_serves (min rem 4) hServes)
  have hEvents : min rem 4 - min (min rem 4) (bytes.length - (s.transport.get p).readCursor) =
      min rem 4 - (bytes.length - (s.transport.get p).readCursor) := by omega
  refine ⟨_, hExec, by rw [hEvents]; rfl, fun j hj => ?_, fun j hm hk => ?_, fun j hk hj => ?_, rfl⟩
  · have hIn : (s.transport.get p).readCursor + j < bytes.length := by omega
    rw [byte_afterBatch _ _ _ _ _ _ _ (by omega), List.getD, getElem?_servedBytes, if_pos (by omega)]
    simp [hIn]
  · have hPast : bytes.length ≤ (s.transport.get p).readCursor + j := by omega
    rw [byte_afterBatch _ _ _ _ _ _ _ (by omega), List.getD, getElem?_servedBytes, if_pos hk]
    simp [hPast]
  · rw [byte_afterBatch _ _ _ _ _ _ _ hj, List.getD, getElem?_servedBytes, if_neg (by omega)]
    rfl

/-! ### A whole transaction -/

/-- A transaction from `p` with `n` bytes left, all of them in the buffer. -/
structure Transacting (s : State) (p : Port) (bytes : List Byte) (n : Nat) : Prop where
  dir    : s.gmbus.command.getLsbD 0 = true
  port   : s.activePort = some p
  serves : Serves s p bytes
  count  : (s.transport.get p).gmbus.totalByteCount.toNat = (s.transport.get p).readCursor + n
  inside : (s.transport.get p).readCursor + n ≤ bytes.length

/-- The state after one 4-byte DATA read of a transaction. -/
def afterRead (s : State) (p : Port) (bytes : List Byte) (n : Nat) : State :=
  afterBatch s p 4 n (servedBytes bytes (s.transport.get p).readCursor (min n 4)) (min n 4) []

/-- One 4-byte DATA read of a transaction delivers up to four bytes and logs nothing. -/
theorem Transacting.grData {s : State} {p : Port} {bytes : List Byte} {n : Nat} (h : Transacting s p bytes n)
    (hPos : 0 < n) : exec (.grData 4) s = .next (afterRead s p bytes n) := by
  have hInside := h.inside
  have hNone : min n 4 - (bytes.length - (s.transport.get p).readCursor) = 0 := by omega
  have hAll : min (min n 4) (bytes.length - (s.transport.get p).readCursor) = min n 4 := by omega
  have hServes : Serves s.beginStep p bytes := ⟨h.serves.serving, h.serves.edid, h.serves.length⟩
  have hPull := pullBytes_of_serves (min n 4) hServes
  simp only [State.beginStep_transport, hNone, hAll, List.replicate_zero] at hPull
  exact grData_batched (.inr (.inr rfl)) h.dir h.port h.count hPos hPull

/-- The four bytes of a 4-byte read value are those of the register. -/
theorem fourBytes_ofNat (x : Word) :
    fourBytes (BitVec.ofNat 64 (x.toNat % 2 ^ (8 * 4))) = (List.range 4).map fun j => x.extractLsb' (8 * j) 8 := by
  have hValue : BitVec.ofNat 64 (x.toNat % 2 ^ (8 * 4)) = x.setWidth 64 := by
    rw [Nat.mod_eq_of_lt x.isLt, BitVec.ofNat_toNat]
  have hByte (k : Nat) (hk : k + 8 ≤ 32) : (x.setWidth 64).extractLsb' k 8 = x.extractLsb' k 8 := by
    refine BitVec.eq_of_getLsbD_eq fun i hi => ?_
    have hLow : k + i < 64 := by omega
    simp [hLow]
  rw [hValue, fourBytes, hByte 0 (by decide), hByte 8 (by decide), hByte 16 (by decide), hByte 24 (by decide)]
  rfl

/-- The value that a read of a transaction returns. -/
def readValue (s : State) (p : Port) (bytes : List Byte) (n : Nat) : BitVec 64 :=
  BitVec.ofNat 64 ((afterRead s p bytes n).gmbus.data.toNat % 2 ^ (8 * 4))

theorem afterRead_value (s : State) (p : Port) (bytes : List Byte) (n : Nat) :
    (afterRead s p bytes n).response.value = some (readValue s p bytes n) := rfl

/-- The bytes of the value begin with the next bytes of the buffer. -/
theorem take_fourBytes_readValue {s : State} {p : Port} {bytes : List Byte} {n : Nat} (h : Transacting s p bytes n) :
    (fourBytes (readValue s p bytes n)).take (min n 4) =
      (bytes.drop (s.transport.get p).readCursor).take (min n 4) := by
  have hInside := h.inside
  refine List.ext_getElem? fun j => ?_
  rw [readValue, fourBytes_ofNat, List.getElem?_take, List.getElem?_take, List.getElem?_drop]
  split_ifs with hj
  · have hIn : (s.transport.get p).readCursor + j < bytes.length := by omega
    have hFour : j < 4 := by omega
    rw [List.getElem?_map, List.getElem?_range hFour, Option.map_some, afterRead, byte_afterBatch _ _ _ _ _ _ _ hFour,
      List.getD, getElem?_servedBytes, if_pos hj]
    simp [hIn]
  · rfl

/-- With more than four bytes left the read advances the cursor by four. -/
theorem afterRead_path {s : State} {p : Port} {bytes : List Byte} {n : Nat} (hMore : 4 < n) :
    (afterRead s p bytes n).transport =
      s.transport.set p { s.transport.get p with readCursor := (s.transport.get p).readCursor + 4 } := by
  have hFour : min n 4 = 4 := by omega
  simp [afterRead, afterBatch, hFour, Nat.not_le.2 hMore]

/-- With more than four bytes left the transaction goes on after the read. -/
theorem Transacting.afterRead {s : State} {p : Port} {bytes : List Byte} {n : Nat} (h : Transacting s p bytes n)
    (hMore : 4 < n) : Transacting (afterRead s p bytes n) p bytes (n - 4) := by
  have hPath : (Machine.afterRead s p bytes n).transport.get p =
      { s.transport.get p with readCursor := (s.transport.get p).readCursor + 4 } := by
    rw [afterRead_path hMore, PortMap.get_set_self]
  have hCount := h.count
  have hInside := h.inside
  refine ⟨h.dir, h.port, ⟨?_, h.serves.edid, h.serves.length⟩, ?_, ?_⟩
  · obtain ⟨hMode, hSelected, hAvailable, hMonitor⟩ := h.serves.serving
    exact ⟨by rw [hPath]; exact hMode, by rw [hPath]; exact hSelected, by rw [hPath]; exact hAvailable, hMonitor⟩
  · rw [hPath]
    simp only
    omega
  · rw [hPath]
    simp only
    omega

theorem dataReads_succ {n : Nat} {s t u : State} {v : BitVec 64} {vs : List (BitVec 64)}
    (hExec : exec (.grData 4) s = .next t) (hValue : t.response.value = some v)
    (hRest : dataReads n t = some (vs, u)) : dataReads (n + 1) s = some (v :: vs, u) := by
  simp only [dataReads, hExec, hValue, hRest]

/-- The reads of a transaction deliver the bytes from the cursor on, and end with the port in zero form. -/
theorem dataReads_of_transacting {s : State} {p : Port} {bytes : List Byte} {n : Nat} (h : Transacting s p bytes n)
    (hPos : 0 < n) :
    ∃ vs t, dataReads ((n + 3) / 4) s = some (vs, t) ∧
      (vs.flatMap fourBytes).take n = (bytes.drop (s.transport.get p).readCursor).take n ∧
      t.transport = s.transport.set p Transport.zero := by
  have hBytes := take_fourBytes_readValue h
  by_cases hLast : n ≤ 4
  · have hOne : (n + 3) / 4 = 0 + 1 := by omega
    rw [Nat.min_eq_left hLast] at hBytes
    refine ⟨_, _, by rw [hOne]; exact dataReads_succ (h.grData hPos) (afterRead_value s p bytes n) rfl, ?_, ?_⟩
    · simpa using hBytes
    · simp [Machine.afterRead, afterBatch, hLast]
  · have hMore : 4 < n := Nat.not_le.1 hLast
    obtain ⟨vs, t, hReads, hRest, hPath⟩ := dataReads_of_transacting (h.afterRead hMore) (Nat.sub_pos_of_lt hMore)
    have hSplit : (n + 3) / 4 = (n - 4 + 3) / 4 + 1 := by omega
    refine ⟨_, t, by rw [hSplit]; exact dataReads_succ (h.grData hPos) (afterRead_value s p bytes n) hReads, ?_, ?_⟩
    · rw [afterRead_path hMore, PortMap.get_set_self] at hRest
      have hLength : (fourBytes (readValue s p bytes n)).length = 4 := rfl
      have hSum : n = 4 + (n - 4) := by omega
      rw [Nat.min_eq_right hMore.le, List.take_of_length_le hLength.le] at hBytes
      calc (List.flatMap fourBytes (readValue s p bytes n :: vs)).take n
          = fourBytes (readValue s p bytes n) ++ (vs.flatMap fourBytes).take (n - 4) := by
            rw [List.flatMap_cons, List.take_append, hLength, List.take_of_length_le (by rw [hLength]; exact hMore.le)]
        _ = (bytes.drop (s.transport.get p).readCursor).take 4 ++
              (bytes.drop ((s.transport.get p).readCursor + 4)).take (n - 4) := by rw [hBytes, hRest]
        _ = (bytes.drop (s.transport.get p).readCursor).take n := by
            conv_rhs => rw [hSum, List.take_add, List.drop_drop]
    · rw [hPath, afterRead_path hMore, PortMap.set_set]
termination_by n

/-- Settles O34: the transaction from cursor 0. -/
theorem dataReadsDeliverFirstBytes : Obligations.DataReadsDeliverFirstBytes := by
  intro s p bytes n hDir hPort hServing hEdid hLength hCursor hCount hPos hn
  have h : Transacting s p bytes n :=
    ⟨hDir, hPort, ⟨hServing, hEdid, hLength⟩, by rw [hCount, hCursor, Nat.zero_add],
      by rw [hCursor, Nat.zero_add]; exact hn⟩
  have hReads := dataReads_of_transacting h hPos
  rwa [hCursor, List.drop_zero] at hReads

end Sys2Proof.Machine
end

section
/-! PROOFS. AUX accesses (R190 to R207): reads and unmapped offsets, the class that an AUXCTL write runs, and what each
triggered class leaves. -/

namespace Sys2Proof.Machine

/-! ### Reads and unmapped offsets -/

/-- Settles O36: the table gives the register of each mapped offset and none for another. -/
theorem auxReadAndBadOffset : Obligations.AuxReadAndBadOffset := by
  constructor
  · intro s p ro hro
    have hTrunc (x : Word) : truncTo 4 (x.setWidth 64) = x.setWidth 64 := by
      rw [truncTo_setWidth, Nat.mod_eq_of_lt x.isLt, BitVec.ofNat_toNat]
    have hReg : auxRegister ro.2 = some ro.1 := by
      simp only [List.mem_cons, List.not_mem_nil, or_false] at hro
      obtain rfl | rfl | rfl | rfl | rfl | rfl := hro <;> rfl
    have hExec : exec (.ar p ro.2) s =
        .next (s.beginStep.returnValue 4 (((s.aux.get p).get ro.1).setWidth 64)) := by
      simp only [exec, execAr, hReg]
    rw [hExec, State.returnValue, hTrunc]
    rfl
  · intro s p v off hOff
    have hNone : auxRegister off = none := by
      simp only [List.mem_cons, List.not_mem_nil, or_false, not_or] at hOff
      obtain ⟨h1, h2, h3, h4, h5, h6⟩ := hOff
      simp [auxRegister_eq, h1, h2, h3, h4, h5, h6]
    have hExec : exec (.ar p off) s = endWith .faultAuxBadOffset s := by simp only [exec, execAr, hNone]
    exact ⟨hExec, rfl⟩

/-! ### The class of an AUXCTL write -/

/-- The framer tests the conditions of R97 in its own order, and runs the class that R97's list selects (R193). -/
theorem execAuxClass_eq (p : Port) (v : Word) (s : State) :
    execAuxClass p v s = exec (auxClass s.params.edidAddr p v (s.aux.get p).data1) s := by
  have hTrigger : auxTrigger v = v.getLsbD 31 := rfl
  simp only [execAuxClass, auxClass, hTrigger, auxLen, auxMot_eq, auxIsRead_eq, auxAddr, Config.Params.auxEdidAddr,
    apply_ite (exec · s)]
  simp only [exec]
  grind

/-! ### What each triggered class leaves -/

/-- A triggered request whose effect changes `T[p]` and logs events, and that replies with `b`. -/
theorem auxTriggered_next {p : Port} {v d1 : Word} {s : State} {b : Byte} {tp : Transport} {events : List Event}
    {effect : State → State}
    (h : effect (auxReply p v d1 s.beginStep) = { auxReply p v d1 s.beginStep with
      transport := s.transport.set p tp, response := okResponse events }) :
    auxTriggered p v d1 (fun s => auxPayload p b (effect s)) s = .next (afterRequest s p v d1 b tp events) := by
  rw [auxTriggered, h, auxPayload_auxReply]

/-- Settles O41: the port is reinitialised if GMBUS had it, and then claimed. -/
theorem startClaimsPort : Obligations.StartClaimsPort := by
  intro s p v d1
  rw [exec_auxreqStartEdid]
  refine auxTriggered_next ?_
  have hMode : ((auxReply p v d1 s.beginStep).transport.get p).mode = (s.transport.get p).mode := rfl
  rw [startEdid, hMode]
  split_ifs with hGmbus
  · simp [startFlags, auxReply, State.updTransport, State.setTransport, State.initTransport, auxAdmit,
      State.setAuxReg, State.setAux]
    rfl
  · simp [startFlags, auxReply, State.updTransport, State.setTransport, auxAdmit, State.setAuxReg, State.setAux]
    rfl

/-- Settles O42: the cursor takes byte 3 of DATA2, which the reply control has not changed. -/
theorem seekSeedsCursor : Obligations.SeekSeedsCursor := by
  intro s p v d1
  have hSeek : (seekByte ((auxReply p v d1 s.beginStep).aux.get p)).toNat =
      ((s.aux.get p).data2.extractLsb' 24 8).toNat := by
    simp only [auxReply, State.setAuxReg_aux, PortMap.get_set_self]
    rfl
  rw [exec_auxreqSeek]
  split_ifs with hLen
  · refine auxTriggered_next ?_
    rw [seek, auxLen, if_pos hLen, hSeek]
    rfl
  · refine auxTriggered_next ?_
    rw [seek, auxLen, if_neg hLen, PortMap.set_get_self]
    rfl

/-- Settles O43: the flags of a START, or no change of the transport, and the event. -/
theorem otherAddressesLogged : Obligations.OtherAddressesLogged := by
  intro s p v d1
  constructor
  · rw [exec_auxreqStartOther]
    exact auxTriggered_next (effect := fun s => (startFlags p s).log (.unsupportedAuxAddress (auxAddr d1))) rfl
  · rw [exec_auxreqWriteOther]
    refine auxTriggered_next (effect := fun s => s.log (.unsupportedAuxAddress (auxAddr d1))) ?_
    rw [PortMap.set_get_self]
    rfl

/-- A read of one byte replies with it and keeps what the cursor did. -/
theorem auxreqRead_next {p : Port} {v d1 : Word} {s : State} {b : Byte} {m : Nat} {events : List Event}
    (h : readByte p (auxReply p v d1 s.beginStep) = (b, pulled p m events (auxReply p v d1 s.beginStep))) :
    exec (.auxreqRead p v d1) s = .next (afterRequest s p v d1 b
      { s.transport.get p with readCursor := (s.transport.get p).readCursor + m } events) := by
  rw [exec_auxreqRead, auxTriggered, h, ← auxPayload_auxReply]
  rfl

/-- A read of a port that is available and selected asks the cursor. -/
theorem readByte_of_claimed {s : State} {p : Port} (v d1 : Word) (hAvailable : (s.transport.get p).edidAvailable = true)
    (hSelected : (s.transport.get p).slaveSelected = true) :
    readByte p (auxReply p v d1 s.beginStep) = nextByte p (auxReply p v d1 s.beginStep) :=
  if_pos (Bool.and_eq_true_iff.2 ⟨hAvailable, hSelected⟩)

/-- A read of a port that is not both takes the sentinel and logs it (R203). -/
theorem readByte_of_not_claimed {s : State} {p : Port} (v d1 : Word)
    (h : ¬ ((s.transport.get p).edidAvailable = true ∧ (s.transport.get p).slaveSelected = true)) :
    readByte p (auxReply p v d1 s.beginStep) =
      (s.params.auxNakByte, pulled p 0 [.protocolViolation .auxNoDevice] (auxReply p v d1 s.beginStep)) := by
  rw [← log_eq_pulled]
  exact if_neg fun hBoth => h (Bool.and_eq_true_iff.1 hBoth)

/-- Settles O44: nothing refuses, and the byte at the cursor is that of the buffer. -/
theorem auxReadDeliversByte : Obligations.AuxReadDeliversByte := by
  intro s p v d1 bytes b hServing hEdid hCursor hByte
  have hOk : nextByteViolation s p = none := by
    rw [nextByteViolation_eq, (serving_iff_refusal s p).1 hServing, if_neg (Nat.not_le.2 hCursor)]
    rfl
  obtain ⟨-, hSelected, hAvailable, -⟩ := hServing
  have hEdidByte : edidByte s p (s.transport.get p).readCursor = b := by
    simp [edidByte, hEdid, hByte]
  refine auxreqRead_next ?_
  rw [readByte_of_claimed v d1 hAvailable hSelected, nextByte_of_ok (s := auxReply p v d1 s.beginStep) hOk]
  exact congrArg (·, _) hEdidByte

/-- A refused `next_byte` replies with 0x00 and logs the reason (R230). -/
theorem auxreqRead_refused {s : State} {p : Port} (v d1 : Word) {kind : Violation}
    (hAvailable : (s.transport.get p).edidAvailable = true) (hSelected : (s.transport.get p).slaveSelected = true)
    (h : nextByteViolation s p = some kind) :
    exec (.auxreqRead p v d1) s =
      .next (afterRequest s p v d1 0 (s.transport.get p) [.protocolViolation kind]) := by
  refine auxreqRead_next (m := 0) ?_
  rw [readByte_of_claimed v d1 hAvailable hSelected]
  exact nextByte_of_violation h

/-- Settles O45: the read does not ask the cursor, or the cursor refuses. -/
theorem auxReadSentinels : Obligations.AuxReadSentinels := by
  intro s p v d1
  refine ⟨fun hNoDevice => ?_, fun ⟨hAvailable, hSelected⟩ => ⟨fun kind hKind => ?_, fun hNone hEnd => ?_⟩⟩
  · exact auxreqRead_next (m := 0) (readByte_of_not_claimed v d1 hNoDevice)
  · refine auxreqRead_refused v d1 hAvailable hSelected ?_
    rw [nextByteViolation_eq, hKind]
    rfl
  · refine auxreqRead_refused v d1 hAvailable hSelected ?_
    rw [nextByteViolation_eq, hNone, if_pos hEnd]
    rfl

/-- Settles O46: the event and the reply control, and under `sentinel` the payload. -/
theorem wrongLengthReadFollowsPolicy : Obligations.WrongLengthReadFollowsPolicy := by
  intro s p v d1
  have hPolicy : (auxReply p v d1 s.beginStep).params = s.params := rfl
  rw [exec_auxreqReadBadlen, auxTriggered]
  simp only [hPolicy]
  cases s.params.auxBadlenPolicy with
  | abort =>
    simp only [auxReply, auxReplyControl_eq, State.beginStep_params, replySize_toNat]
    rfl
  | sentinel =>
    simp only [← auxPayload_auxReply, PortMap.set_get_self]
    rfl

end Sys2Proof.Machine
end

section
/-! PROOFS. What an operation that resets no controller may do to the transport of a port (R30 to R35, R235), and the
triggered classes: each replies and makes such a change to its port alone (R196, R207). -/

namespace Sys2Proof.Machine

/-- What an operation may do to a transport beside its table entry `c` and EDID length `len`: it makes no GMBUS claim,
it moves the cursor to a byte value, back, or no further than the EDID, it sets the count from its nine bits and does
not leave the phase at Wait, and the port becomes available only as AUX admits it. -/
structure TransportMove (c : PathConfig) (len : Nat) (t t' : Transport) : Prop where
  claim     : t'.mode = .gmbus → t.mode = .gmbus
  cursor    : t'.readCursor ≤ 255 ∨ t'.readCursor ≤ t.readCursor ∨ t'.readCursor ≤ len
  count     : t'.gmbus.totalByteCount.toNat ≤ 511 ∨ t'.gmbus.totalByteCount = t.gmbus.totalByteCount
  phase     : t'.gmbus.phase ≠ .wait ∨ t'.gmbus.phase = t.gmbus.phase
  available : t'.edidAvailable = true → (t'.mode = t.mode ∧ t.edidAvailable = true) ∨
    (t'.mode = .auxChannel ∧ c.hasMonitor = true ∧ c.isDisplayport = true)

namespace TransportMove

variable {c : PathConfig} {len : Nat} {t t' t'' : Transport}

theorem refl : TransportMove c len t t :=
  ⟨id, .inr (.inl le_rfl), .inr rfl, .inr rfl, fun h => .inl ⟨rfl, h⟩⟩

theorem trans (h : TransportMove c len t t') (k : TransportMove c len t' t'') : TransportMove c len t t'' := by
  obtain ⟨hClaim, hCursor, hCount, hPhase, hAvailable⟩ := h
  obtain ⟨kClaim, kCursor, kCount, kPhase, kAvailable⟩ := k
  refine ⟨fun hMode => hClaim (kClaim hMode), by omega, ?_, ?_, ?_⟩
  · obtain k | k := kCount
    · exact .inl k
    · rw [k]; exact hCount
  · obtain k | k := kPhase
    · exact .inl k
    · rw [k]; exact hPhase
  · intro hSet
    obtain ⟨kMode, hStill⟩ | k := kAvailable hSet
    · rw [kMode]; exact hAvailable hStill
    · exact .inr k

/-- A reinitialisation is such a change from any state. -/
theorem zero : TransportMove c len t Transport.zero :=
  ⟨nofun, .inl (Nat.zero_le _), .inl (Nat.zero_le _), .inl nofun, nofun⟩

/-- A change of the cursor alone. -/
theorem setCursor {n : Nat} (h : n ≤ 255 ∨ n ≤ t.readCursor ∨ n ≤ len) :
    TransportMove c len t { t with readCursor := n } :=
  ⟨id, h, .inr rfl, .inr rfl, fun h => .inl ⟨rfl, h⟩⟩

/-- A change of the AUX flags alone. -/
theorem setFlags (x : AuxTransport) : TransportMove c len t { t with aux := x } :=
  ⟨id, .inr (.inl le_rfl), .inr rfl, .inr rfl, fun h => .inl ⟨rfl, h⟩⟩

/-- A claim for AUX, as a bare START makes it (R198). -/
theorem claimAux :
    TransportMove c len t { t with
      mode := .auxChannel, slaveSelected := true, edidAvailable := c.hasMonitor && c.isDisplayport,
      aux := ⟨true, true⟩ } :=
  ⟨nofun, .inr (.inl le_rfl), .inr rfl, .inr rfl, fun h => .inr ⟨rfl, Bool.and_eq_true_iff.1 h⟩⟩

/-- Such a change keeps a legal transport legal. -/
theorem transportOk (h : TransportMove c len t t') (hLen : len ≤ 256) (hOk : Machine.transportOk t c) :
    Machine.transportOk t' c := by
  obtain ⟨-, hCursor, hCount, hPhase, hAvailable⟩ := h
  obtain ⟨okCursor, okCount, okPhase, okAvailable⟩ := hOk
  refine ⟨by omega, ?_, ?_, ?_⟩
  · obtain h | h := hCount
    · exact h
    · rw [h]; exact okCount
  · obtain h | h := hPhase
    · exact h
    · rw [h]; exact okPhase
  · intro hSet
    obtain ⟨hMode, hStill⟩ | h := hAvailable hSet
    · rw [hMode]; exact okAvailable hStill
    · exact .inr h

end TransportMove

/-- What an operation that resets no controller may do to `T[p]` at `s`. -/
def pathMove (s : State) (p : Port) (tp : Transport) : Prop :=
  TransportMove (s.cfg.get p) (s.edidLen.get p) (s.transport.get p) tp

/-! ### The EDID cursor -/

/-- `m` bytes are no more than the EDID of `p` holds from the cursor on. -/
def cursorAdvance (s : State) (p : Port) (m : Nat) : Prop :=
  m = 0 ∨ (s.transport.get p).readCursor + m ≤ s.edidLen.get p

theorem pathMove_of_cursorAdvance {s : State} {p : Port} {m : Nat} (h : cursorAdvance s p m) :
    pathMove s p { s.transport.get p with readCursor := (s.transport.get p).readCursor + m } := by
  refine TransportMove.setCursor ?_
  obtain rfl | h := h
  · exact .inr (.inl le_rfl)
  · exact .inr (.inr h)

/-- A `next_byte` delivers one byte of the EDID or none. -/
theorem nextByte_pulled (p : Port) (s : State) :
    ∃ b m events, nextByte p s = (b, pulled p m events s) ∧ cursorAdvance s p m := by
  cases h : nextByteViolation s p with
  | some kind => exact ⟨_, _, _, nextByte_of_violation h, .inl rfl⟩
  | none =>
    obtain ⟨-, -, -, -, hCursor⟩ := nextByteViolation_eq_none.1 h
    exact ⟨_, _, _, nextByte_of_ok h, .inr hCursor⟩

/-- A pull of `k` bytes delivers no byte past the end of the EDID. -/
theorem pullBytes_pulled (p : Port) (k : Nat) (s : State) :
    ∃ bs m events, pullBytes p k s = (bs, pulled p m events s) ∧ cursorAdvance s p m := by
  induction k generalizing s with
  | zero => exact ⟨[], 0, [], by rw [pulled_zero]; rfl, .inl rfl⟩
  | succ k ih =>
    obtain ⟨b, m, events, hNext, hOne⟩ := nextByte_pulled p s
    obtain ⟨bs, n, more, hRest, hMany⟩ := ih (pulled p m events s)
    refine ⟨b :: bs, m + n, events ++ more, ?_, ?_⟩
    · rw [pullBytes_succ k hNext, hRest, pulled_pulled]
    · simp only [cursorAdvance, pulled, PortMap.get_set_self] at hOne hMany ⊢
      omega

/-! ### The triggered classes -/

/-- `i` is a triggered request on `p` at `s`: it completes with AUXCTL = DONE and the reply size, some DATA1, DATA2 to
DATA5 kept, a change that `pathMove` allows to `T[p]`, and events. -/
def AnswersRequest (i : Instr) (p : Port) (v d1 : Word) (s : State) : Prop :=
  ∃ d tp events, pathMove s p tp ∧ exec i s = .next { s with
    aux := s.aux.set p { s.aux.get p with
      auxctl := BitVec.ofNat 32 (2 ^ 30 + replySizeOf s.params v d1 * 2 ^ 20), data1 := d }
    transport := s.transport.set p tp
    response := okResponse events }

theorem answersRequest_of_afterRequest {i : Instr} {p : Port} {v d1 : Word} {s : State} {b : Byte} {tp : Transport}
    {events : List Event} (hMove : pathMove s p tp) (h : exec i s = .next (afterRequest s p v d1 b tp events)) :
    AnswersRequest i p v d1 s :=
  ⟨_, tp, events, hMove, h⟩

section
variable (p : Port) (v d1 : Word) (s : State)

theorem auxreqStop_answers : AnswersRequest (.auxreqStop p v d1) p v d1 s :=
  answersRequest_of_afterRequest .zero (exec_auxreqStop_next p v d1 s)

theorem auxreqAddr0_answers : AnswersRequest (.auxreqAddr0 p v d1) p v d1 s :=
  answersRequest_of_afterRequest .zero (stopAndAddressResetReinitialise s p v d1 _ (by simp))

theorem auxreqStartEdid_answers : AnswersRequest (.auxreqStartEdid p v d1) p v d1 s := by
  refine answersRequest_of_afterRequest ?_ (startClaimsPort s p v d1)
  split_ifs
  · exact .trans .zero .claimAux
  · exact .claimAux

theorem auxreqStartOther_answers : AnswersRequest (.auxreqStartOther p v d1) p v d1 s :=
  answersRequest_of_afterRequest (.setFlags _) (otherAddressesLogged s p v d1).1

theorem auxreqWriteOther_answers : AnswersRequest (.auxreqWriteOther p v d1) p v d1 s :=
  answersRequest_of_afterRequest .refl (otherAddressesLogged s p v d1).2

theorem auxreqSeek_answers : AnswersRequest (.auxreqSeek p v d1) p v d1 s := by
  have h := seekSeedsCursor s p v d1
  split_ifs at h
  · exact answersRequest_of_afterRequest (.setCursor (.inl (Nat.le_of_lt_succ (BitVec.isLt _)))) h
  · exact answersRequest_of_afterRequest .refl h

theorem auxreqRead_answers : AnswersRequest (.auxreqRead p v d1) p v d1 s := by
  by_cases hClaimed : (s.transport.get p).edidAvailable = true ∧ (s.transport.get p).slaveSelected = true
  · obtain ⟨b, m, events, hNext, hAdvance⟩ := nextByte_pulled p (auxReply p v d1 s.beginStep)
    obtain ⟨hAvailable, hSelected⟩ := hClaimed
    have hRead := (readByte_of_claimed v d1 hAvailable hSelected).trans hNext
    exact answersRequest_of_afterRequest (pathMove_of_cursorAdvance (m := m) hAdvance) (auxreqRead_next hRead)
  · exact answersRequest_of_afterRequest .refl ((auxReadSentinels s p v d1).1 hClaimed)

theorem auxreqReadBadlen_answers : AnswersRequest (.auxreqReadBadlen p v d1) p v d1 s := by
  have h := wrongLengthReadFollowsPolicy s p v d1
  cases hPolicy : s.params.auxBadlenPolicy with
  | sentinel =>
    rw [hPolicy] at h
    exact answersRequest_of_afterRequest .refl h
  | abort =>
    rw [hPolicy] at h
    refine ⟨(s.aux.get p).data1, s.transport.get p,
      [.protocolViolation (.auxBadReadLength (v.extractLsb' 20 5))], .refl, h.trans ?_⟩
    rw [PortMap.set_get_self]

/-- Every class of a triggered write answers. -/
theorem auxClass_answers (edid : BitVec 7) (hTrigger : v.getLsbD 31 = true) :
    AnswersRequest (auxClass edid p v d1) p v d1 s := by
  rw [auxClass, if_neg (ne_false_of_eq_true hTrigger)]
  split_ifs
  · exact auxreqStop_answers p v d1 s
  · exact auxreqAddr0_answers p v d1 s
  · exact auxreqStartEdid_answers p v d1 s
  · exact auxreqStartOther_answers p v d1 s
  · exact auxreqSeek_answers p v d1 s
  · exact auxreqWriteOther_answers p v d1 s
  · exact auxreqRead_answers p v d1 s
  · exact auxreqReadBadlen_answers p v d1 s

end

/-- An AUXCTL write runs the class that the value, the latched DATA1 and `EDID_ADDR` select. -/
theorem exec_awCtl_eq (p : Port) (v : Word) (s : State) :
    exec (.awCtl p v) s = exec (auxClass s.params.edidAddr p v (s.aux.get p).data1) s :=
  (exec_awCtl p v s).trans (execAuxClass_eq p v s)

/-- A clear-status write is the class of an untriggered value. -/
theorem auxClass_of_not_trigger {edid : BitVec 7} {p : Port} {v d1 : Word} (h : v.getLsbD 31 = false) :
    auxClass edid p v d1 = .auxreqClear p v d1 := if_pos h

/-- Settles O37: the write and its class are the same step, and a class always completes. -/
theorem auxctlWriteRunsSelectedClass : Obligations.AuxctlWriteRunsSelectedClass := by
  intro s p v
  rw [exec_awCtl_eq]
  cases hTrigger : v.getLsbD 31 with
  | false =>
    rw [auxClass_of_not_trigger hTrigger]
    exact ⟨_, rfl, rfl⟩
  | true =>
    obtain ⟨d, tp, events, -, h⟩ := auxClass_answers p v (s.aux.get p).data1 s s.params.edidAddr hTrigger
    exact ⟨_, h, h⟩

/-- Settles O38: the class answers, and an answer keeps DATA2 to DATA5. -/
theorem triggeredWriteAlwaysReplies : Obligations.TriggeredWriteAlwaysReplies := by
  intro s p v hTrigger
  obtain ⟨d, tp, events, -, h⟩ := auxClass_answers p v (s.aux.get p).data1 s s.params.edidAddr hTrigger
  refine ⟨_, (exec_awCtl_eq p v s).trans h, rfl, ?_⟩
  simp only [PortMap.get_set_self, and_self]

end Sys2Proof.Machine
end

section
/-! PROOFS. What an admitted GMBUS access ends with (R69, R163 to R169), and what a step runs (R12, R40, R102). -/

namespace Sys2Proof.Machine

/-! ### The table of R69 -/

theorem readAdmitted_eq_false_iff {off w : Nat} (hw : wellAligned off w) (hIn : insideBank off w) :
    admittedWidth .read off w = false ↔ specialRead off w := by
  obtain ⟨rfl | rfl | rfl | rfl, hMod⟩ := hw
  all_goals
    simp only [admittedWidth, readAdmitted, specialRead, insideBank] at hIn ⊢
    grind

theorem writeAdmitted_eq_false_iff {off w : Nat} (hw : wellAligned off w) (hIn : insideBank off w) :
    admittedWidth .write off w = false ↔ specialWrite off w := by
  obtain ⟨rfl | rfl | rfl | rfl, hMod⟩ := hw
  all_goals
    simp only [admittedWidth, writeAdmitted, specialWrite, insideBank] at hIn ⊢
    grind

/-- A DATA read either returns the latched value and changes nothing, or is a batched read of the active port. -/
theorem dataRead_cases (w : Nat) (s : State) :
    (∃ events, dataRead w s.beginStep = { s with response := okRead w s.gmbus.data.toNat events }) ∨
    ∃ p rem bs m events, s.activePort = some p ∧ cursorAdvance s p m ∧
      dataRead w s.beginStep = afterBatch s p w rem bs m events := by
  cases hDir : s.gmbus.command.getLsbD 0 with
  | false => exact .inl ⟨_, dataRead_wrongDirection w hDir⟩
  | true =>
    cases hPort : s.activePort with
    | none => exact .inl ⟨_, dataRead_noActivePort w hDir hPort⟩
    | some p =>
      by_cases hRem : (s.transport.get p).gmbus.totalByteCount.toNat ≤ (s.transport.get p).readCursor
      · refine .inl ⟨[], ?_⟩
        rw [dataRead_exhausted (s := s.beginStep) w hDir hPort (bytesRemaining_nonpos.2 hRem), returnData_eq w rfl]
        rfl
      · obtain ⟨rem, hCount⟩ := Nat.exists_eq_add_of_le (Nat.le_of_not_le hRem)
        obtain ⟨bs, m, events, hPull, hAdvance⟩ := pullBytes_pulled p (min rem 4) s.beginStep
        refine .inr ⟨p, rem, bs, m, events, rfl, hAdvance, ?_⟩
        rw [dataRead_batched (s := s.beginStep) hDir hPort hCount (by omega), batchedRead_eq hPull]

theorem dataRead_outcome (w : Nat) (s : State) : (dataRead w s.beginStep).response.outcome = .ok := by
  obtain ⟨events, h⟩ | ⟨p, rem, bs, m, events, -, -, h⟩ := dataRead_cases w s <;> rw [h] <;> rfl

theorem controlWrite_outcome (v : Word) (s : State) : (controlWrite v s.beginStep).response.outcome = .ok := by
  unfold controlWrite
  split
  · split_ifs <;> rfl
  · rfl

/-- An admitted read completes with outcome Ok, whatever row it is routed to. -/
theorem exec_routeGmbusRead_ok {off w : Nat} (s : State) (h : admission .read off w = none) :
    ∃ t, exec (routeGmbusRead off w) s = .next t ∧ t.response.outcome = .ok := by
  unfold routeGmbusRead
  split_ifs with hStatus hData
  · subst hStatus; exact ⟨_, grStatus_next s h, rfl⟩
  · subst hData; exact ⟨_, grData_next s h, dataRead_outcome w s⟩
  · exact ⟨_, grPass_next s h, rfl⟩

/-- An admitted write completes with outcome Ok, but a DATA write with its rejection. -/
theorem exec_routeGmbusWrite_ok {off w : Nat} (v : BitVec 64) (s : State) (h : admission .write off w = none) :
    ∃ t, exec (routeGmbusWrite off w v) s = .next t ∧
      t.response.outcome = if off = 0x0C then .rejectedDataWrite else .ok := by
  by_cases hData : off = 0x0C
  · subst hData; exact ⟨_, gwData_next v s h, rfl⟩
  · rw [if_neg hData]
    unfold routeGmbusWrite
    split_ifs with hControl hCommand hStatus
    · subst hControl; exact ⟨_, gwControl_next v s h, controlWrite_outcome _ s⟩
    · subst hCommand
      rw [gwCommand_next v s h, execCommandForm_eq]
      exact exec_commandForm_next _ _ s
    · subst hStatus; exact ⟨_, gwStatus_next v s h, rfl⟩
    · exact ⟨_, gwPass_next v s h, rfl⟩

/-- Settles O13: the table turns the access away, or it completes. -/
theorem admissionFollowsWidthTable : Obligations.AdmissionFollowsWidthTable := by
  intro s off w v hw hIn
  have hRead := readAdmitted_eq_false_iff hw hIn
  have hWrite := writeAdmitted_eq_false_iff hw hIn
  refine ⟨fun h => exec_routeGmbusRead_refused s ?_, fun h => exec_routeGmbusRead_ok s ?_,
    fun h => exec_routeGmbusWrite_refused v s ?_, fun h => exec_routeGmbusWrite_ok v s ?_⟩
  · rw [admission_of_insideBank .read hw hIn, hRead.2 h]; rfl
  · rw [admission_of_insideBank .read hw hIn, if_pos (Bool.not_eq_false _ |>.mp fun hNot => h (hRead.1 hNot))]
  · rw [admission_of_insideBank .write hw hIn, hWrite.2 h]; rfl
  · rw [admission_of_insideBank .write hw hIn, if_pos (Bool.not_eq_false _ |>.mp fun hNot => h (hWrite.1 hNot))]

/-! ### Steps -/

/-- Settles O8: the head of the stream is routed, and a descriptor is routed by decoding it. -/
theorem stepRunsNextCall : Obligations.StepRunsNextCall := by
  refine ⟨fun s r rest h => step_cons h, fun s d ops rest i h hDecode => ?_, fun s h => ?_⟩
  · have hRoute : decodeAccess d ops = i := Except.ok.inj hDecode
    rw [step_cons h, route, hRoute]
    rfl
  · rw [step, fetch, h]

/-- A step on an AUX write at low offset 0x10 runs the class of the write (R193). -/
theorem step_auxctlWrite {s : State} {p : Port} {off v : Word} {rest : List Request}
    (h : s.pending = .auxWrite p off v :: rest) (hOff : off.extractLsb' 0 8 = (0x10 : Byte)) :
    step s = exec (auxClass s.params.edidAddr p v (s.aux.get p).data1) (taken s rest) := by
  have hRoute : route (.auxWrite p off v) = .awCtl p v := by
    rw [route, routeAuxWrite, auxLowOffset, hOff]
    rfl
  rw [step_cons h, hRoute, exec_awCtl_eq]
  rfl

/-- Settles O9: the step runs the form or the class, and that is what the key decodes to. -/
theorem stepRunsSelectedRow : Obligations.StepRunsSelectedRow := by
  refine ⟨fun s v rest i h hDecode => ?_, fun s p off v rest h hOff => step_auxctlWrite h hOff,
    fun s p off v rest i h hOff hEdid hDecode => ?_⟩
  · have hForm : commandForm (s.gmbus.command.getLsbD 31) (v.setWidth 32) = i :=
      Except.ok.inj ((commandRowsSelectForms _ _).symm.trans hDecode)
    have hRoute : route (.gmbusWrite 0x04 4 v) = .gwCommand 4 v := rfl
    rw [step_cons h, hRoute, gwCommand_form, ← hForm]
    rfl
  · have hClass : auxClass 0x50 p v (s.aux.get p).data1 = i :=
      Except.ok.inj ((auxRowsSelectClasses p v _).symm.trans hDecode)
    rw [step_auxctlWrite h hOff, hEdid, hClass]

/-- Settles O10: the default of `REG_RESET` is 0 in every bank, and selector 0 resolves to no port. -/
theorem resetState : Obligations.ResetState := by
  refine ⟨fun r => ?_, fun p r => ?_, fun p => PortMap.get_fill _ p, fun p => PortMap.get_fill _ p,
    fun p => PortMap.get_fill _ p, by decide, rfl, rfl⟩
  · cases r <;> rfl
  · cases p <;> cases r <;> rfl

/-- Settles O50: the refusal is the whole meaning of the three rows. -/
theorem badDescriptorsRefused : Obligations.BadDescriptorsRefused := by
  intro s d i hi
  simp only [List.mem_cons, List.not_mem_nil, or_false] at hi
  obtain rfl | rfl | rfl := hi <;> exact endWith_eq _ s

end Sys2Proof.Machine
end

section
/-! PROOFS. What one operation can do, said once (R12, R130, R250): its effect on the state, by the kind of operation.
The statements about every instruction are read off it. -/

namespace Sys2Proof.Machine

/-! ### The register bank -/

/-- What an operation that is not the host's register reset may do to the bank: it keeps the STATUS bits that no rule
writes, and sets neither INT nor SW_RDY (R23, R25, R154, R263). -/
structure BankMove (g g' : GmbusRegs) : Prop where
  held  : ∀ i, statusBitIsHeld i = true → g'.status.getLsbD i = g.status.getLsbD i
  noInt : g'.status.getLsbD 12 = true → g.status.getLsbD 12 = true
  noRdy : g'.command.getLsbD 30 = true → g.command.getLsbD 30 = true

theorem BankMove.refl (g : GmbusRegs) : BankMove g g := ⟨fun _ _ => rfl, id, id⟩

/-- A held bit is one of BYTES, STALL and bits 31:16. -/
theorem statusBitIsHeld_iff {i : Nat} : statusBitIsHeld i = true ↔ i ≤ 8 ∨ i = 13 ∨ (16 ≤ i ∧ i < 32) := by
  simp [statusBitIsHeld, or_assoc]

/-- A change of STATUS that keeps its held bits and does not set INT. -/
theorem BankMove.setStatus {g : GmbusRegs} {st : Word}
    (h : ∀ i, statusBitIsHeld i = true ∨ i = 12 → st.getLsbD i = true → g.status.getLsbD i = true)
    (hBack : ∀ i, statusBitIsHeld i = true → g.status.getLsbD i = true → st.getLsbD i = true) :
    BankMove g { g with status := st } :=
  ⟨fun i hi => Bool.eq_iff_iff.2 ⟨h i (.inl hi), hBack i hi⟩, h 12 (.inr rfl), id⟩

/-- A word is its four bytes. -/
theorem word_eq_of_bytes {x y : Word} (h : ∀ j < 4, x.extractLsb' (8 * j) 8 = y.extractLsb' (8 * j) 8) : x = y := by
  refine BitVec.eq_of_getLsbD_eq fun i hi => ?_
  have hByte := congrArg (BitVec.getLsbD · (i % 8)) (h (i / 8) (by omega))
  have hBit : 8 * (i / 8) + i % 8 = i := Nat.div_add_mod i 8
  have hLow : i % 8 < 8 := Nat.mod_lt _ (by decide)
  simpa only [BitVec.getLsbD_extractLsb', hBit, hLow, decide_true, Bool.true_and] using hByte

/-- `MemWrite` keeps a register none of whose bytes it addresses. -/
theorem memWrite_get {g : GmbusRegs} {off w : Nat} {v : BitVec 64} {r : BankReg}
    (h : ∀ j < 4, ¬ (off ≤ r.offset + j ∧ r.offset + j < off + w)) : (memWrite g off w v).get r = g.get r := by
  obtain ⟨hBytes, -⟩ := bankIsSixRegisters
  refine word_eq_of_bytes fun j hj => Option.some.inj ?_
  rw [← hBytes _ r j hj, ← hBytes _ r j hj, bankByte_memWrite, if_neg (h j hj)]

/-- An admitted write through the byte view keeps the registers below 0x10 but the one at its offset (R69). -/
theorem gwPass_get {g : GmbusRegs} {off w : Nat} {v : BitVec 64} {r : BankReg} (h : admission .write off w = none)
    (hLow : r.offset < 0x10) (hOff : off ≠ r.offset) : (memWrite g off w v).get r = g.get r := by
  obtain ⟨-, -, hWidth⟩ := admission_eq_none.1 h
  have hWhole : (off = 0x00 ∨ off = 0x04 ∨ off = 0x08) ∧ w = 4 ∨ off = 0x0C ∧ w ≤ 4 ∨ 0x10 ≤ off := by
    simp only [admittedWidth, writeAdmitted] at hWidth
    grind
  refine memWrite_get fun j hj => ?_
  cases r <;> simp only [BankReg.offset] at hLow hOff ⊢ <;> omega

/-! ### The effects -/

/-- The effect of an operation `i` that leads from `s` to a next state. -/
inductive Effect (s : State) : Instr → State → Prop where
  /-- The response alone changes. -/
  | quiet (i : Instr) (r : Response) : Effect s i { s with response := r }
  /-- A GMBUS access that resets no controller: the bank, and the transport of the active port. -/
  | gmbus {i : Instr} {g : GmbusRegs} {m : PortMap Transport} {r : Response} (hAccess : isGmbusAccess i = true)
      (hOk : r.outcome = .ok) (hBank : BankMove s.gmbus g) (hData : (∀ w, i ≠ .grData w) → g.data = s.gmbus.data)
      (hElse : ∀ q, s.activePort ≠ some q → m.get q = s.transport.get q) (hMove : ∀ q, pathMove s q (m.get q)) :
      Effect s i { s with gmbus := g, transport := m, response := r }
  /-- A write through the byte view. -/
  | pass {off w : Nat} {v : BitVec 64} (h : admission .write off w = none) :
      Effect s (.gwPass off w v) { s with gmbus := memWrite s.gmbus off w v, response := okResponse [] }
  /-- A controller reset for `q`. -/
  | reset {i : Instr} {g : GmbusRegs} {q : Option Port} (hReset : resetsController s i) (hBank : BankMove s.gmbus g)
      (hData : g.data = s.gmbus.data) :
      Effect s i { s with
        gmbus := g, transport := resetTransports (gmbusAdmits s q) q, response := okResponse [] }
  /-- An AUX operation: the block and the transport of its port. -/
  | aux {i : Instr} {p : Port} {x : AuxBlock} {tp : Transport} {r : Response} (hPort : auxPort i = some p)
      (hOk : r.outcome = .ok) (hBusy : x.auxctl.getLsbD 31 = true → (s.aux.get p).auxctl.getLsbD 31 = true)
      (hMove : pathMove s p tp) :
      Effect s i { s with aux := s.aux.set p x, transport := s.transport.set p tp, response := r }
  /-- `init_transport`. -/
  | init (p : Port) :
      Effect s (.hostInit p) { s with transport := s.transport.set p Transport.zero, response := okResponse [] }
  /-- An accepted `configure`. -/
  | configure (p : Port) (dp : Bool) {mon : Bool} {edid : Option (List Byte)} (h : badConfig mon edid = false) :
      Effect s (.hostConfig p mon dp edid) { s with
        cfg := s.cfg.set p ⟨true, mon, dp, edid⟩
        edidLen := s.edidLen.set p (configuredLen edid)
        transport := s.transport.set p Transport.zero
        response := okResponse [] }
  /-- The register reset of the host. -/
  | registers : Effect s .hostReset (controllerReset s.beginStep)

/-! ### GMBUS accesses -/

theorem gmbusAccess_effect {i : Instr} {dir : Direction} {off w : Nat} {f : State → State} {s t : State}
    (h : gmbusAccess dir off w f s = .next t) (hf : admission dir off w = none → Effect s i (f s.beginStep)) :
    Effect s i t := by
  obtain ⟨o, -, rfl⟩ | ⟨hAdmitted, rfl⟩ := gmbusAccess_cases h
  · exact .quiet i _
  · exact hf hAdmitted

/-- An access that changes the bank alone. -/
theorem Effect.bank {s : State} {i : Instr} {g : GmbusRegs} {r : Response} (hAccess : isGmbusAccess i = true)
    (hOk : r.outcome = .ok) (hBank : BankMove s.gmbus g) (hData : g.data = s.gmbus.data) :
    Effect s i { s with gmbus := g, response := r } :=
  .gmbus hAccess hOk hBank (fun _ => hData) (fun _ _ => rfl) fun _ => .refl

theorem statusRead_effect (w : Nat) (s : State) : Effect s (.grStatus w) (statusRead w s.beginStep) := by
  refine .bank (g := { s.gmbus with status := statusAfterRead s.gmbus.status }) rfl rfl ?_ rfl
  refine .setStatus (fun i hi => ?_) fun i hi => ?_
  all_goals
    rw [statusBitIsHeld_iff] at hi
    rw [getLsbD_statusAfterRead, if_neg (by omega)]
    exact id

theorem statusWrite_effect (w : Nat) (v : BitVec 64) (s : State) :
    Effect s (.gwStatus w v) (s.beginStep.setStatus (statusAfterWrite (v.setWidth 32) s.gmbus.status)) := by
  refine .bank (g := { s.gmbus with status := statusAfterWrite (v.setWidth 32) s.gmbus.status }) rfl rfl ?_ rfl
  refine .setStatus (fun i hi => ?_) fun i hi => ?_
  all_goals
    rw [statusBitIsHeld_iff] at hi
    rw [getLsbD_statusAfterWrite, if_neg (by omega)]
    exact id

theorem pathMove_of_set {s : State} {p : Port} {tp : Transport} (h : pathMove s p tp) (q : Port) :
    pathMove s q ((s.transport.set p tp).get q) := by
  rw [PortMap.get_set]
  split_ifs with hq
  · subst hq; exact h
  · exact .refl

theorem dataRead_effect (w : Nat) (s : State) : Effect s (.grData w) (dataRead w s.beginStep) := by
  obtain ⟨events, h⟩ | ⟨p, rem, bs, m, events, hPort, hAdvance, h⟩ := dataRead_cases w s
  · rw [h]
    exact .quiet _ _
  · rw [h]
    refine .gmbus rfl rfl ⟨fun _ _ => rfl, id, id⟩ (fun hNot => absurd rfl (hNot w)) (fun q hq => ?_)
      (pathMove_of_set ?_)
    · exact PortMap.get_set_ne _ _ fun hEq => hq (hEq ▸ hPort)
    · split_ifs
      · exact .zero
      · exact pathMove_of_cursorAdvance hAdvance

/-- A controller reset keeps the STATUS bits that no rule writes, and INT (R143). -/
theorem resetStatusBit_of_held {admitted : Bool} {st : Word} {i : Nat} (h : statusBitIsHeld i = true ∨ i = 12) :
    resetStatusBit admitted st i = st.getLsbD i := by
  rw [statusBitIsHeld_iff] at h
  rw [resetStatusBit, if_neg (by omega), if_neg (by omega), if_neg (by omega), if_neg (by omega)]

theorem lt_of_statusBitIsHeld {i : Nat} (h : statusBitIsHeld i = true) : i < 32 := by
  rw [statusBitIsHeld_iff] at h
  omega

theorem statusBitIsHeld_ne {i : Nat} (h : statusBitIsHeld i = true) : i ≠ 9 ∧ i ≠ 11 ∧ i ≠ 12 := by
  rw [statusBitIsHeld_iff] at h
  omega

theorem gwControl_effect {w : Nat} {v : BitVec 64} {s t : State} (h : exec (.gwControl w v) s = .next t) :
    Effect s (.gwControl w v) t := by
  refine gmbusAccess_effect h fun hAdmitted => ?_
  obtain ⟨-, -, hWidth⟩ := admission_eq_none.1 hAdmitted
  obtain rfl : w = 4 := by simpa [admittedWidth, writeAdmitted] using hWidth
  cases hq : resolve s.params (v.extractLsb' 0 3) with
  | none =>
    have hNext := (gwControl_next v s hAdmitted).symm.trans (controlWriteUnresolved s v hq)
    rw [Host.Outcome.next.inj hNext]
    exact .bank rfl rfl ⟨fun _ _ => rfl, id, id⟩ rfl
  | some q =>
    obtain ⟨u, hu, hStatus, hFrame⟩ := controlWriteSelectsPort s v q hq
    rw [Host.Outcome.next.inj ((gwControl_next v s hAdmitted).symm.trans hu), hFrame]
    refine .reset (.inl ⟨v, rfl, by rw [hq]; exact Option.some_ne_none q⟩) ⟨fun i hi => ?_, fun hInt => ?_, id⟩ rfl
    · exact (hStatus i (lt_of_statusBitIsHeld hi)).trans (resetStatusBit_of_held (.inl hi))
    · exact ((hStatus 12 (by decide)).trans (resetStatusBit_of_held (.inr rfl))).symm.trans hInt

theorem softwareClear_effect {i : Instr} {v : Word} {s t : State} (hReset : resetsController s i)
    (h : exec (.cmdSwclrDone v) s = .next t) : Effect s i t := by
  obtain ⟨u, hu, hCommand, hStatus, hFrame⟩ := softwareClearCompletes s v
  obtain rfl : u = t := Host.Outcome.next.inj (hu.symm.trans h)
  rw [hFrame]
  refine .reset hReset ⟨fun i hi => ?_, fun hInt => ?_, fun hRdy => ?_⟩ rfl
  · rw [hStatus i (lt_of_statusBitIsHeld hi), if_neg (statusBitIsHeld_ne hi).2.2]
    exact resetStatusBit_of_held (.inl hi)
  · rw [hStatus 12 (by decide), if_pos rfl] at hInt
    exact absurd hInt Bool.false_ne_true
  · rwa [hCommand 30 (by decide), if_neg (by decide)] at hRdy

/-! ### COMMAND writes -/

/-- The fields of a decoded write are in their ranges. -/
theorem decodedTransport_move {c : PathConfig} {len : Nat} (edid : BitVec 7) (v : Word) (t : Transport) :
    TransportMove c len t (decodedTransport edid v t) := by
  refine ⟨id, ?_, .inl ?_, .inr rfl, fun h => .inl ⟨rfl, h⟩⟩
  · simp only [decodedTransport]
    split_ifs
    · exact .inl (Nat.le_of_lt_succ (BitVec.isLt _))
    · exact .inr (.inl le_rfl)
  · have hCount : ((v.extractLsb' 16 9).setWidth 16).toNat ≤ 511 := by
      rw [BitVec.toNat_setWidth_of_le (by decide)]
      exact Nat.le_of_lt_succ (BitVec.isLt _)
    exact hCount

theorem CycleAction.move {f : Transport → Transport} (h : CycleAction f) {c : PathConfig} {len : Nat} (t : Transport) :
    TransportMove c len t (f t) := by
  cases h with
  | stay => exact .refl
  | enterData => exact ⟨id, .inr (.inl le_rfl), .inr rfl, .inl nofun, fun h => .inl ⟨rfl, h⟩⟩
  | release => exact .zero

theorem decodedWrite_effect {i : Instr} {v : Word} {s t : State} {f : Transport → Transport} {active : Option Bool}
    {more : List Event} (hAccess : isGmbusAccess i = true) (h : CommandDecoded s t v f active more)
    (hf : CycleAction f) : Effect s i t := by
  obtain ⟨hCommand, hStatus, hPath, hNoPath, hResponse, hFrame⟩ := h
  have hElse (q : Port) (hq : s.activePort ≠ some q) : t.transport.get q = s.transport.get q := by
    cases hPort : s.activePort with
    | none => rw [hNoPath hPort]
    | some p =>
      rw [hPath p hPort]
      exact PortMap.get_set_ne _ _ fun hEq => hq (hEq ▸ hPort)
  have hMove (q : Port) : pathMove s q (t.transport.get q) := by
    cases hPort : s.activePort with
    | none =>
      rw [hNoPath hPort]
      exact .refl
    | some p =>
      rw [hPath p hPort]
      exact pathMove_of_set (.trans (decodedTransport_move _ v _) (hf.move _)) q
  rw [hFrame]
  refine .gmbus hAccess (by rw [hResponse]; rfl) ⟨fun j hj => ?_, fun hInt => ?_, fun hRdy => ?_⟩ (fun _ => rfl)
    hElse hMove
  · obtain ⟨h9, h11, h12⟩ := statusBitIsHeld_ne hj
    exact (hStatus j (lt_of_statusBitIsHeld hj)).trans (by simp [h9, h11, h12])
  · have h12 := (hStatus 12 (by decide)).symm.trans hInt
    grind
  · have h30 := (hCommand 30 (by decide)).symm.trans hRdy
    exact absurd h30 Bool.false_ne_true

theorem isDecodedWrite_effect {i j : Instr} {v : Word} {s t : State} (hAccess : isGmbusAccess i = true)
    (hj : IsDecodedWrite j v s) (h : exec j s = .next t) : Effect s i t := by
  obtain ⟨u, f, active, more, hu, hd, hf⟩ := hj
  obtain rfl : u = t := Host.Outcome.next.inj (hu.symm.trans h)
  exact decodedWrite_effect hAccess hd hf

theorem gwCommand_effect {w : Nat} {v : BitVec 64} {s t : State} (h : exec (.gwCommand w v) s = .next t) :
    Effect s (.gwCommand w v) t := by
  cases hAdmitted : admission .write 0x04 w with
  | some o =>
    rw [gwCommand_refused v s hAdmitted] at h
    rw [← Host.Outcome.next.inj h]
    exact .quiet _ _
  | none =>
    obtain ⟨-, -, hWidth⟩ := admission_eq_none.1 hAdmitted
    obtain rfl : w = 4 := by simpa [admittedWidth, writeAdmitted] using hWidth
    rw [gwCommand_form] at h
    have hBit : (v.setWidth 32).getLsbD 31 = v.getLsbD 31 := by
      rw [BitVec.getLsbD_setWidth]
      exact Bool.true_and _
    cases hOld : s.gmbus.command.getLsbD 31 with
    | false =>
      rw [hOld] at h
      exact isDecodedWrite_effect rfl (commandForm_decoded _ s) h
    | true =>
      rw [hOld, commandForm, if_pos rfl, hBit] at h
      split_ifs at h with hClr
      · rw [← Host.Outcome.next.inj h]
        exact .quiet _ _
      · exact softwareClear_effect (.inr (.inl ⟨v, rfl, hOld, Bool.eq_false_iff.2 hClr⟩)) h

/-! ### AUX operations -/

theorem answersRequest_effect {i j : Instr} {p : Port} {v d1 : Word} {s t : State} (hPort : auxPort i = some p)
    (hj : AnswersRequest j p v d1 s) (h : exec j s = .next t) : Effect s i t := by
  obtain ⟨d, tp, events, hMove, hNext⟩ := hj
  rw [← Host.Outcome.next.inj (hNext.symm.trans h), ← replySize_toNat, ← auxReplyControl_eq]
  refine .aux hPort rfl (fun hBusy => ?_) hMove
  have hClear (size : BitVec 5) : (auxReplyControl size).getLsbD 31 = false := by
    simp only [auxReplyControl, BitVec.getLsbD_or, BitVec.getLsbD_shiftLeft, BitVec.getLsbD_setWidth]
    simp
  exact absurd ((hClear _).symm.trans hBusy) Bool.false_ne_true

/-- A DATA-word write keeps AUXCTL and the transports. -/
theorem auxStore_effect {i : Instr} {p : Port} {r : AuxReg} {v : Word} {s t : State} (hPort : auxPort i = some p)
    (hr : r ≠ .auxctl) (h : auxStore p r v s = .next t) : Effect s i t := by
  rw [← Host.Outcome.next.inj h]
  have hKept : ((s.aux.get p).set r v).auxctl = (s.aux.get p).auxctl := AuxBlock.get_set_ne _ v hr.symm
  have hEffect : Effect s i { s with
      aux := s.aux.set p ((s.aux.get p).set r v)
      transport := s.transport.set p (s.transport.get p), response := okResponse [] } :=
    .aux hPort rfl (by rw [hKept]; exact id) .refl
  rw [PortMap.set_get_self] at hEffect
  exact hEffect

theorem awCtl_effect {p : Port} {v : Word} {s t : State} (h : exec (.awCtl p v) s = .next t) :
    Effect s (.awCtl p v) t := by
  rw [exec_awCtl_eq] at h
  cases hTrigger : v.getLsbD 31 with
  | false =>
    rw [auxClass_of_not_trigger hTrigger] at h
    rw [← Host.Outcome.next.inj h]
    exact .quiet _ _
  | true => exact answersRequest_effect rfl (auxClass_answers p v _ s _ hTrigger) h

/-- An AUX read changes the response alone. -/
theorem ar_effect {p : Port} {off : Byte} {s t : State} (h : exec (.ar p off) s = .next t) :
    Effect s (.ar p off) t := by
  cases hReg : auxRegister off with
  | none =>
    simp only [exec, execAr, hReg] at h
    rw [← Host.Outcome.next.inj h]
    exact .quiet _ _
  | some r =>
    simp only [exec, execAr, hReg] at h
    rw [← Host.Outcome.next.inj h]
    exact .quiet _ _

/-! ### Every operation -/

/-- An operation that changes the response alone. -/
theorem quiet_effect {i : Instr} {r : Response} {s t : State} (h : exec i s = .next t)
    (hQuiet : exec i s = .next { s with response := r }) : Effect s i t := by
  rw [← Host.Outcome.next.inj (hQuiet.symm.trans h)]
  exact .quiet i r

theorem hostConfig_effect {p : Port} {mon dp : Bool} {edid : Option (List Byte)} {s t : State}
    (h : exec (.hostConfig p mon dp edid) s = .next t) : Effect s (.hostConfig p mon dp edid) t := by
  cases hBad : badConfig mon edid with
  | true => exact quiet_effect h (exec_hostConfig_refused p dp s hBad)
  | false =>
    rw [← Host.Outcome.next.inj ((exec_hostConfig_accepted p dp s hBad).symm.trans h)]
    exact .configure p dp hBad

/-- Every operation that answers a next state has one of the effects. -/
theorem exec_effect {i : Instr} {s t : State} (h : exec i s = .next t) : Effect s i t := by
  cases i with
  | invalidAuxport d => exact quiet_effect h rfl
  | invalidHostport d => exact quiet_effect h rfl
  | invalid d => exact quiet_effect h rfl
  | grStatus w => exact gmbusAccess_effect h fun _ => statusRead_effect w s
  | grData w => exact gmbusAccess_effect h fun _ => dataRead_effect w s
  | grPass off w =>
    rw [exec_grPass] at h
    exact gmbusAccess_effect h fun _ => .quiet _ _
  | gwControl w v => exact gwControl_effect h
  | gwCommand w v => exact gwCommand_effect h
  | gwStatus w v =>
    rw [exec_gwStatus] at h
    exact gmbusAccess_effect h fun _ => statusWrite_effect w v s
  | gwData w v =>
    rw [exec_gwData] at h
    exact gmbusAccess_effect h fun _ => .quiet _ _
  | gwPass off w v =>
    rw [exec_gwPass] at h
    exact gmbusAccess_effect h fun hAdmitted => .pass hAdmitted
  | awCtl p v => exact awCtl_effect h
  | awData1 p v => exact auxStore_effect rfl (by decide) h
  | awData2 p v => exact auxStore_effect rfl (by decide) h
  | awData3 p v => exact auxStore_effect rfl (by decide) h
  | awData4 p v => exact auxStore_effect rfl (by decide) h
  | awData5 p v => exact auxStore_effect rfl (by decide) h
  | awBadoff p off v => exact quiet_effect h rfl
  | ar p off => exact ar_effect h
  | hostInit p =>
    rw [← Host.Outcome.next.inj h]
    exact .init p
  | hostConfig p mon dp edid => exact hostConfig_effect h
  | hostReset =>
    rw [← Host.Outcome.next.inj h]
    exact .registers
  | cmdSwclrHeld v => exact quiet_effect h rfl
  | cmdSwclrDone v => exact softwareClear_effect (.inr (.inr ⟨v, rfl⟩)) h
  | cmdNocycle v => exact isDecodedWrite_effect rfl (cmdNocycle_decoded v s) h
  | cmdStop v => exact isDecodedWrite_effect rfl (cmdStop_decoded v s) h
  | cmdNidxWait v => exact isDecodedWrite_effect rfl (dataCycle_decoded (v := v) s (by simp)) h
  | cmdIdxWait v => exact isDecodedWrite_effect rfl (dataCycle_decoded (v := v) s (by simp)) h
  | cmdNidxStop v => exact isDecodedWrite_effect rfl (dataCycle_decoded (v := v) s (by simp)) h
  | cmdIdxStop v => exact isDecodedWrite_effect rfl (dataCycle_decoded (v := v) s (by simp)) h
  | cmdRsvd2 v =>
    exact isDecodedWrite_effect rfl (reservedCycle_decoded (ic := (.cmdRsvd2 v, 2)) (v := v) s (by simp)) h
  | cmdRsvd6 v =>
    exact isDecodedWrite_effect rfl (reservedCycle_decoded (ic := (.cmdRsvd6 v, 6)) (v := v) s (by simp)) h
  | auxreqClear p v d1 => exact quiet_effect h rfl
  | auxreqStop p v d1 => exact answersRequest_effect rfl (auxreqStop_answers p v d1 s) h
  | auxreqAddr0 p v d1 => exact answersRequest_effect rfl (auxreqAddr0_answers p v d1 s) h
  | auxreqStartEdid p v d1 => exact answersRequest_effect rfl (auxreqStartEdid_answers p v d1 s) h
  | auxreqStartOther p v d1 => exact answersRequest_effect rfl (auxreqStartOther_answers p v d1 s) h
  | auxreqSeek p v d1 => exact answersRequest_effect rfl (auxreqSeek_answers p v d1 s) h
  | auxreqWriteOther p v d1 => exact answersRequest_effect rfl (auxreqWriteOther_answers p v d1 s) h
  | auxreqRead p v d1 => exact answersRequest_effect rfl (auxreqRead_answers p v d1 s) h
  | auxreqReadBadlen p v d1 => exact answersRequest_effect rfl (auxreqReadBadlen_answers p v d1 s) h

end Sys2Proof.Machine
end

section
/-! PROOFS. The statements about every operation and every step (R29, R36, R45, R130, R250, R263), and the invariant
(R23, R25, R28, R34, R128, R154, R235), read off the effects. -/

namespace Sys2Proof.Machine

open Sys2Proof.Config

/-! ### What every operation keeps -/

/-- Settles O53: the effects other than the quiet one end with outcome Ok. -/
theorem nonOkOutcomeChangesNoState : Obligations.NonOkOutcomeChangesNoState := by
  intro i s t h hOutcome
  cases exec_effect h with
  | quiet r => rfl
  | gmbus _ hOk => exact absurd hOk hOutcome
  | aux _ hOk => exact absurd hOk hOutcome
  | pass => exact absurd rfl hOutcome
  | reset => exact absurd rfl hOutcome
  | init => exact absurd rfl hOutcome
  | configure => exact absurd rfl hOutcome
  | registers => exact absurd rfl hOutcome

/-- Settles O54: `configure` is the one effect on the table. -/
theorem onlyConfigureWritesTable : Obligations.OnlyConfigureWritesTable := by
  intro i s t h hNot
  cases exec_effect h with
  | configure p dp => exact absurd rfl (hNot p _ dp _)
  | _ => exact ⟨rfl, rfl⟩

/-- No effect is on the parameters or on the stream. -/
theorem Effect.params_pending {i : Instr} {s t : State} (h : Effect s i t) :
    t.params = s.params ∧ t.pending = s.pending := by
  cases h <;> exact ⟨rfl, rfl⟩

/-- A step that answers a next state takes one call and runs its operation. -/
theorem step_inv {s t : State} (h : step s = .next t) :
    ∃ r rest, s.pending = r :: rest ∧ exec (route r) (taken s rest) = .next t := by
  cases hPending : s.pending with
  | nil =>
    rw [step, fetch, hPending] at h
    exact nomatch h
  | cons r rest => exact ⟨r, rest, rfl, (step_cons hPending).symm.trans h⟩

/-- Settles O55: the step takes the head of the stream, and the operation keeps the rest and the parameters. -/
theorem stepKeepsParameters : Obligations.StepKeepsParameters := by
  intro s t h
  obtain ⟨r, rest, hPending, hExec⟩ := step_inv h
  obtain ⟨hParams, hRest⟩ := (exec_effect hExec).params_pending
  exact ⟨hParams, r, hPending.trans (congrArg (r :: ·) hRest.symm)⟩

/-- An operation that names a port is no GMBUS access. -/
theorem isGmbusAccess_of_auxPort {i : Instr} {p : Port} (h : auxPort i = some p) : isGmbusAccess i = false := by
  cases i <;> first | rfl | exact nomatch h

theorem isGmbusAccess_of_resetsController {s : State} {i : Instr} (h : resetsController s i) :
    isGmbusAccess i = true := by
  obtain ⟨v, rfl, -⟩ | ⟨v, rfl, -⟩ | ⟨v, rfl⟩ := h <;> rfl

/-- Settles O56: the AUX effect is on one port. -/
theorem auxWritesOnlyItsPort : Obligations.AuxWritesOnlyItsPort := by
  intro i p s t hPort h
  have hNoGmbus := isGmbusAccess_of_auxPort hPort
  cases exec_effect h with
  | quiet r => exact ⟨rfl, rfl, rfl, fun _ _ => ⟨rfl, rfl⟩⟩
  | gmbus hAccess => exact nomatch hNoGmbus.symm.trans hAccess
  | reset hReset => exact nomatch hNoGmbus.symm.trans (isGmbusAccess_of_resetsController hReset)
  | aux hPort' =>
    obtain rfl := Option.some.inj (hPort.symm.trans hPort')
    exact ⟨rfl, rfl, rfl, fun q hq => ⟨PortMap.get_set_ne _ _ hq, PortMap.get_set_ne _ _ hq⟩⟩
  | pass => exact nomatch hPort
  | init => exact nomatch hPort
  | configure => exact nomatch hPort
  | registers => exact nomatch hPort

/-- Settles O58: the GMBUS effect is on the active port. -/
theorem gmbusWritesOnlyActivePort : Obligations.GmbusWritesOnlyActivePort := by
  intro i s t hAccess hNoReset h
  cases exec_effect h with
  | quiet r => exact ⟨rfl, fun _ _ => rfl⟩
  | gmbus _ _ _ _ hElse => exact ⟨rfl, hElse⟩
  | pass => exact ⟨rfl, fun _ _ => rfl⟩
  | reset hReset => exact absurd hReset hNoReset
  | aux hPort => exact nomatch (isGmbusAccess_of_auxPort hPort).symm.trans hAccess
  | init => exact nomatch hAccess
  | configure => exact nomatch hAccess
  | registers => exact nomatch hAccess

/-- Settles O59: the GMBUS effect keeps DATA but for a DATA read, and so does a write elsewhere in the bank. -/
theorem onlyDataReadChangesData : Obligations.OnlyDataReadChangesData := by
  intro i s t h hRead hReset hPass
  cases exec_effect h with
  | gmbus _ _ _ hData => exact hData hRead
  | reset _ _ hData => exact hData
  | pass hAdmitted =>
    exact gwPass_get (r := .data) hAdmitted (by decide) fun hOff => hPass _ _ (by rw [hOff]; rfl)
  | registers => exact absurd rfl hReset
  | _ => rfl

/-- Settles O60: the bank moves set no INT, and so does a write elsewhere in the bank. -/
theorem interruptFlagNeverSet : Obligations.InterruptFlagNeverSet := by
  intro i s t h hReset hPass
  cases exec_effect h with
  | gmbus _ _ hBank => exact hBank.noInt
  | reset _ hBank => exact hBank.noInt
  | @pass off w v hAdmitted =>
    have hOff : off ≠ BankReg.status.offset := fun hOff => hPass w v (by rw [hOff]; rfl)
    have hKept : (memWrite s.gmbus off w v).status = s.gmbus.status :=
      gwPass_get (r := .status) hAdmitted (by decide) hOff
    exact (congrArg (BitVec.getLsbD · 12) hKept).symm.trans
  | registers => exact absurd rfl hReset
  | _ => exact id

/-! ### The invariant -/

theorem cfgOk_unconfigured : cfgOk PathConfig.unconfigured 128 :=
  ⟨.inl rfl, nofun, nofun, fun _ => rfl⟩

theorem transportOk_zero (c : PathConfig) : transportOk Transport.zero c :=
  ⟨Nat.zero_le _, Nat.zero_le _, nofun, nofun⟩

/-- Settles O51: no port is configured or claimed, and every register holds `REG_RESET`. -/
theorem invariantAtReset : Obligations.InvariantAtReset := by
  intro params
  refine ⟨fun p => ?_, fun p => ?_, fun p q hp => ?_, fun _ _ => rfl, id, id, fun hBusy p => ?_⟩
  · simp only [State.resetWith, PortMap.get_fill]
    exact cfgOk_unconfigured
  · simp only [State.resetWith, PortMap.get_fill]
    exact transportOk_zero _
  · simp [State.resetWith, Transport.zero] at hp
  · simp only [State.resetWith, PortMap.get_fill]
    exact hBusy

/-- The invariant does not read the response. -/
theorem StateInv.quiet {s : State} (h : StateInv s) (r : Response) : StateInv { s with response := r } :=
  ⟨h.entries, h.paths, h.oneClaim, h.held, h.noInt, h.noRdy, h.notBusy⟩

/-- A legal EDID length is at most 256. -/
theorem cfgOk.len_le {c : PathConfig} {len : Nat} (h : cfgOk c len) : len ≤ 256 := by
  obtain ⟨rfl | rfl, -⟩ := h <;> decide

/-- A change that every port allows keeps the transports legal. -/
theorem StateInv.paths_of_moves {s : State} (h : StateInv s) {m : PortMap Transport}
    (hMove : ∀ q, pathMove s q (m.get q)) (q : Port) : transportOk (m.get q) (s.cfg.get q) :=
  (hMove q).transportOk (h.entries q).len_le (h.paths q)

theorem StateInv.oneClaim_of_moves {s : State} (h : StateInv s) {m : PortMap Transport}
    (hMove : ∀ q, pathMove s q (m.get q)) (p q : Port) (hp : (m.get p).mode = .gmbus) (hq : (m.get q).mode = .gmbus) :
    p = q :=
  h.oneClaim p q ((hMove p).claim hp) ((hMove q).claim hq)

/-- A bank move keeps the register clauses of the invariant. -/
theorem StateInv.gmbus {s : State} (h : StateInv s) {g : GmbusRegs} {m : PortMap Transport} {r : Response}
    (hBank : BankMove s.gmbus g) (hPaths : ∀ p, transportOk (m.get p) (s.cfg.get p))
    (hClaim : ∀ p q, (m.get p).mode = .gmbus → (m.get q).mode = .gmbus → p = q) :
    StateInv { s with gmbus := g, transport := m, response := r } where
  entries := h.entries
  paths := hPaths
  oneClaim := hClaim
  held i hi := (hBank.held i hi).trans (h.held i hi)
  noInt hInt := h.noInt (hBank.noInt hInt)
  noRdy hRdy := Bool.eq_false_iff.2 fun hSet => Bool.eq_false_iff.1 (h.noRdy hRdy) (hBank.noRdy hSet)
  notBusy := h.notBusy

theorem resetTransports_get (admitted : Bool) (q : Option Port) (p : Port) :
    (resetTransports admitted q).get p =
      if q = some p then { Transport.zero with mode := .gmbus, edidAvailable := admitted } else Transport.zero := by
  cases q with
  | none => simp [resetTransports]
  | some q =>
    rw [resetTransports, PortMap.get_set, PortMap.get_fill]
    by_cases h : p = q
    · subst h; simp
    · simp [h, Ne.symm h]

/-- Only the selected port is claimed by GMBUS after a controller reset. -/
theorem eq_of_resetTransports_mode {admitted : Bool} {q : Option Port} {p : Port}
    (h : ((resetTransports admitted q).get p).mode = .gmbus) : q = some p := by
  rw [resetTransports_get] at h
  split_ifs at h with hq
  · exact hq
  · exact nomatch h

/-- A controller reset leaves the selected port claimed by GMBUS, available as GMBUS admits it, and no other. -/
theorem StateInv.reset {s : State} (h : StateInv s) {g : GmbusRegs} {q : Option Port} {r : Response}
    (hBank : BankMove s.gmbus g) :
    StateInv { s with gmbus := g, transport := resetTransports (gmbusAdmits s q) q, response := r } := by
  refine h.gmbus hBank (fun p => ?_) fun p p' hp hp' => ?_
  · rw [resetTransports_get]
    split_ifs with hq
    · subst hq
      refine ⟨Nat.zero_le _, Nat.zero_le _, nofun, fun hAdmitted => .inl ⟨rfl, ?_⟩⟩
      simpa [gmbusAdmits] using hAdmitted
    · exact transportOk_zero _
  · exact Option.some.inj ((eq_of_resetTransports_mode hp).symm.trans (eq_of_resetTransports_mode hp'))

/-- An AUX operation claims nothing for GMBUS and leaves SEND_BUSY as it was or clear. -/
theorem StateInv.aux {s : State} (h : StateInv s) {p : Port} {x : AuxBlock} {tp : Transport} {r : Response}
    (hBusy : x.auxctl.getLsbD 31 = true → (s.aux.get p).auxctl.getLsbD 31 = true) (hMove : pathMove s p tp) :
    StateInv { s with aux := s.aux.set p x, transport := s.transport.set p tp, response := r } where
  entries := h.entries
  paths := h.paths_of_moves (pathMove_of_set hMove)
  oneClaim := h.oneClaim_of_moves (pathMove_of_set hMove)
  held := h.held
  noInt := h.noInt
  noRdy := h.noRdy
  notBusy hReset q := by
    rw [PortMap.get_set]
    split_ifs with hq
    · exact Bool.eq_false_iff.2 fun hSet => Bool.eq_false_iff.1 (h.notBusy hReset p) (hBusy hSet)
    · exact h.notBusy hReset q

/-- An entry that `configure` accepts is legal (R238). -/
theorem cfgOk_of_accepted {mon dp : Bool} {edid : Option (List Byte)} (h : badConfig mon edid = false) :
    cfgOk ⟨true, mon, dp, edid⟩ (configuredLen edid) := by
  obtain ⟨hLength, hMonitor⟩ := badConfig_eq_false_iff.1 h
  refine ⟨?_, fun bytes hBytes => ?_, hMonitor, nofun⟩
  · cases edid with
    | none => exact .inl rfl
    | some bytes => exact hLength bytes rfl
  · obtain rfl : edid = some bytes := hBytes
    rfl

/-- An accepted `configure` writes a legal entry and reinitialises its port. -/
theorem StateInv.configure {s : State} (h : StateInv s) {p : Port} {c : PathConfig} {len : Nat} {r : Response}
    (hEntry : cfgOk c len) :
    StateInv { s with
      cfg := s.cfg.set p c, edidLen := s.edidLen.set p len, transport := s.transport.set p Transport.zero,
      response := r } where
  entries q := by
    simp only [PortMap.get_set]
    split_ifs
    · exact hEntry
    · exact h.entries q
  paths q := by
    simp only [PortMap.get_set]
    split_ifs
    · exact transportOk_zero c
    · exact h.paths q
  oneClaim := h.oneClaim_of_moves (pathMove_of_set .zero)
  held := h.held
  noInt := h.noInt
  noRdy := h.noRdy
  notBusy := h.notBusy

/-- The host's register reset keeps the table and puts the rest at its reset value. -/
theorem StateInv.registers {s : State} (h : StateInv s) : StateInv (controllerReset s.beginStep) where
  entries := h.entries
  paths p := by
    simp only [controllerReset, State.initAll, PortMap.get_fill]
    exact transportOk_zero _
  oneClaim p q hp := by simp [controllerReset, State.initAll, Transport.zero] at hp
  held _ _ := rfl
  noInt := id
  noRdy := id
  notBusy hReset p := by
    simp only [controllerReset, PortMap.get_fill]
    exact hReset

/-- Every effect keeps the invariant; a write through the byte view does where it is not at COMMAND or STATUS, which
have writes of their own. -/
theorem StateInv.effect {s t : State} {i : Instr} (hInv : StateInv s) (h : Effect s i t)
    (hPass : ∀ off w v, i = .gwPass off w v → off ≠ 0x04 ∧ off ≠ 0x08) : StateInv t := by
  cases h with
  | quiet r => exact hInv.quiet _
  | gmbus _ _ hBank _ _ hMove => exact hInv.gmbus hBank (hInv.paths_of_moves hMove) (hInv.oneClaim_of_moves hMove)
  | @pass off w v hAdmitted =>
    obtain ⟨hCommand, hStatus⟩ := hPass _ _ _ rfl
    have hCommandKept : (memWrite s.gmbus off w v).command = s.gmbus.command :=
      gwPass_get (r := .command) hAdmitted (by decide) hCommand
    have hStatusKept : (memWrite s.gmbus off w v).status = s.gmbus.status :=
      gwPass_get (r := .status) hAdmitted (by decide) hStatus
    refine hInv.gmbus ⟨fun i _ => ?_, fun hInt => ?_, fun hRdy => ?_⟩ hInv.paths hInv.oneClaim
    · exact congrArg (BitVec.getLsbD · i) hStatusKept
    · exact (congrArg (BitVec.getLsbD · 12) hStatusKept).symm.trans hInt
    · exact (congrArg (BitVec.getLsbD · 30) hCommandKept).symm.trans hRdy
  | reset _ hBank => exact hInv.reset hBank
  | aux _ _ hBusy hMove => exact hInv.aux hBusy hMove
  | init p =>
    have hMove : ∀ q, pathMove s q ((s.transport.set p Transport.zero).get q) := pathMove_of_set .zero
    exact hInv.gmbus (.refl _) (hInv.paths_of_moves hMove) (hInv.oneClaim_of_moves hMove)
  | configure p dp hGood => exact hInv.configure (cfgOk_of_accepted hGood)
  | registers => exact hInv.registers

/-- A call is routed to a write through the byte view only where COMMAND and STATUS are not (R140). -/
theorem route_gwPass {r : Request} {off w : Nat} {v : BitVec 64} (h : route r = .gwPass off w v) :
    off ≠ 0x04 ∧ off ≠ 0x08 := by
  cases r with
  | gmbusRead off w =>
    simp only [route, routeGmbusRead] at h
    split_ifs at h
  | gmbusWrite off w v =>
    simp only [route, routeGmbusWrite] at h
    split_ifs at h with _ hCommand hStatus
    cases h
    exact ⟨hCommand, hStatus⟩
  | auxWrite p off v =>
    simp only [route, routeAuxWrite] at h
    split at h <;> exact nomatch h
  | descriptor d ops =>
    have hWellFormed := wellFormed_decodeAccess d ops
    rw [show decodeAccess d ops = _ from h] at hWellFormed
    simp only [Instr.wellFormed, Bool.and_eq_true, bne_iff_ne] at hWellFormed
    obtain ⟨⟨⟨-, hCommand⟩, hStatus⟩, -⟩ := hWellFormed
    exact ⟨hCommand, hStatus⟩
  | auxRead | initTransport | configure | controllerReset => exact nomatch h

/-- Settles O52: the call taken from the stream is no part of the invariant, and its effect keeps it. -/
theorem stepKeepsInvariant : Obligations.StepKeepsInvariant := by
  intro s t hInv h
  obtain ⟨r, rest, -, hExec⟩ := step_inv h
  have hTaken : StateInv (taken s rest) :=
    ⟨hInv.entries, hInv.paths, hInv.oneClaim, hInv.held, hInv.noInt, hInv.noRdy, hInv.notBusy⟩
  exact hTaken.effect (exec_effect hExec) fun _ _ _ => route_gwPass

end Sys2Proof.Machine
end

section
/-! PROOFS. Noninterference of the ports (R130): an AUX operation reads only what belongs to the port it names. Two
states that agree there are carried along side by side; every operation the AUX accesses are written over keeps the
agreement. -/

namespace Sys2Proof.Machine

/-- Two begun states agree on the parameters, on what belongs to port `p` and on the response so far. -/
structure AgreesAt (p : Port) (s u : State) : Prop where
  params    : s.params = u.params
  aux       : s.aux.get p = u.aux.get p
  cfg       : s.cfg.get p = u.cfg.get p
  edidLen   : s.edidLen.get p = u.edidLen.get p
  transport : s.transport.get p = u.transport.get p
  response  : s.response = u.response

/-- Two results are next states that agree. -/
def ResultsAgree (p : Port) (a b : Result) : Prop := ∃ s u, a = .next s ∧ b = .next u ∧ AgreesAt p s u

namespace AgreesAt

variable {p : Port} {s u : State}

theorem setAuxReg (h : AgreesAt p s u) (r : AuxReg) (v : Word) :
    AgreesAt p (s.setAuxReg p r v) (u.setAuxReg p r v) :=
  ⟨h.params, by simp [h.aux], h.cfg, h.edidLen, h.transport, h.response⟩

theorem setTransport (h : AgreesAt p s u) (t : Transport) : AgreesAt p (s.setTransport p t) (u.setTransport p t) :=
  ⟨h.params, h.aux, h.cfg, h.edidLen, by simp, h.response⟩

theorem updTransport (h : AgreesAt p s u) (f : Transport → Transport) :
    AgreesAt p (s.updTransport p f) (u.updTransport p f) := by
  rw [State.updTransport, State.updTransport, h.transport]
  exact h.setTransport _

theorem setResponse (h : AgreesAt p s u) (r : Response) : AgreesAt p (s.setResponse r) (u.setResponse r) :=
  ⟨h.params, h.aux, h.cfg, h.edidLen, h.transport, rfl⟩

theorem log (h : AgreesAt p s u) (ev : Event) : AgreesAt p (s.log ev) (u.log ev) := by
  rw [State.log, State.log, h.response]
  exact h.setResponse _

theorem auxReply (h : AgreesAt p s u) (v d1 : Word) : AgreesAt p (auxReply p v d1 s) (auxReply p v d1 u) := by
  rw [Machine.auxReply, Machine.auxReply, h.params]
  exact h.setAuxReg _ _

theorem auxPayload (h : AgreesAt p s u) (b : Byte) : AgreesAt p (auxPayload p b s) (auxPayload p b u) := by
  rw [Machine.auxPayload, Machine.auxPayload, h.params]
  exact h.setAuxReg _ _

/-- The claim of a START reads the port's mode and its table entry (R198). -/
theorem startEdid (h : AgreesAt p s u) : AgreesAt p (startEdid p s) (startEdid p u) := by
  have hAdmit : auxAdmit s p = auxAdmit u p := by rw [auxAdmit, auxAdmit, h.cfg]
  rw [Machine.startEdid, Machine.startEdid, h.transport, hAdmit]
  split_ifs
  · exact ((h.setTransport .zero).updTransport _).updTransport _
  · exact (h.updTransport _).updTransport _

/-- A seek reads the port's DATA2 (R201). -/
theorem seek (h : AgreesAt p s u) (len : BitVec 5) : AgreesAt p (seek p len s) (seek p len u) := by
  rw [Machine.seek, Machine.seek, h.aux]
  split_ifs
  · exact h.updTransport _
  · exact h.log _

/-- The cursor reads the port's transport, table entry and EDID length (R230). -/
theorem nextByte (h : AgreesAt p s u) :
    (nextByte p s).1 = (nextByte p u).1 ∧ AgreesAt p (nextByte p s).2 (nextByte p u).2 := by
  have hViolation : nextByteViolation s p = nextByteViolation u p := by
    simp only [nextByteViolation, h.transport, h.cfg, h.edidLen]
  have hByte (i : Nat) : edidByte s p i = edidByte u p i := by simp only [edidByte, h.cfg]
  rw [Machine.nextByte, Machine.nextByte, hViolation, h.transport, hByte]
  cases nextByteViolation u p with
  | some kind => exact ⟨rfl, h.log _⟩
  | none => exact ⟨rfl, h.updTransport fun t => { t with readCursor := t.readCursor + 1 }⟩

theorem readByte (h : AgreesAt p s u) :
    (readByte p s).1 = (readByte p u).1 ∧ AgreesAt p (readByte p s).2 (readByte p u).2 := by
  rw [Machine.readByte, Machine.readByte, h.transport, h.params]
  split_ifs
  · exact h.nextByte
  · exact ⟨rfl, h.log _⟩

/-- A triggered request agrees where its effect does. -/
theorem auxTriggered (h : AgreesAt p s.beginStep u.beginStep) (v d1 : Word) {effect : State → State}
    (hEffect : ∀ {s u}, AgreesAt p s u → AgreesAt p (effect s) (effect u)) :
    ResultsAgree p (auxTriggered p v d1 effect s) (auxTriggered p v d1 effect u) :=
  ⟨_, _, rfl, rfl, hEffect (h.auxReply v d1)⟩

/-- A reply with a fixed byte agrees where the effect before it does. -/
theorem auxAnswered (h : AgreesAt p s.beginStep u.beginStep) (v d1 : Word) {effect : State → State}
    (hEffect : ∀ {s u}, AgreesAt p s u → AgreesAt p (effect s) (effect u)) :
    ResultsAgree p (Machine.auxTriggered p v d1 (fun s => Machine.auxPayload p 0x00 (effect s)) s)
      (Machine.auxTriggered p v d1 (fun s => Machine.auxPayload p 0x00 (effect s)) u) :=
  h.auxTriggered v d1 fun h => (hEffect h).auxPayload _

/-- A store to one word of the port. -/
theorem auxStore (h : AgreesAt p s.beginStep u.beginStep) (r : AuxReg) (v : Word) :
    ResultsAgree p (auxStore p r v s) (auxStore p r v u) :=
  ⟨_, _, rfl, rfl, h.setAuxReg r v⟩

/-- A refusal ends both steps with one response. -/
theorem endWith (h : AgreesAt p s.beginStep u.beginStep) (o : StepOutcome) :
    ResultsAgree p (endWith o s) (endWith o u) :=
  ⟨_, _, rfl, rfl, h.setResponse _⟩

/-- Each class of an AUXCTL write (R193 to R204). -/
theorem auxInstr (h : AgreesAt p s.beginStep u.beginStep) (row : AuxRow) (v d1 : Word) :
    ResultsAgree p (exec (auxInstr row p v d1) s) (exec (auxInstr row p v d1) u) := by
  cases row with
  | auxreqClear => exact ⟨_, _, rfl, rfl, h⟩
  | auxreqStop => exact h.auxAnswered v d1 fun h => h.setTransport .zero
  | auxreqAddr0 => exact h.auxAnswered v d1 fun h => (h.updTransport _).setTransport .zero
  | auxreqStartEdid => exact h.auxAnswered v d1 startEdid
  | auxreqStartOther => exact h.auxAnswered v d1 fun h => (h.updTransport _).log _
  | auxreqSeek => exact h.auxAnswered v d1 fun h => h.seek _
  | auxreqWriteOther => exact h.auxAnswered v d1 fun h => h.log _
  | auxreqRead =>
    change ResultsAgree p (exec (.auxreqRead p v d1) s) (exec (.auxreqRead p v d1) u)
    rw [exec_auxreqRead, exec_auxreqRead]
    refine h.auxTriggered v d1 fun {s u} h => ?_
    obtain ⟨hByte, hAfter⟩ := h.readByte
    rw [hByte]
    exact hAfter.auxPayload _
  | auxreqReadBadlen =>
    change ResultsAgree p (exec (.auxreqReadBadlen p v d1) s) (exec (.auxreqReadBadlen p v d1) u)
    rw [exec_auxreqReadBadlen, exec_auxreqReadBadlen]
    refine h.auxTriggered v d1 fun {s u} h => ?_
    simp only [h.params]
    cases u.params.auxBadlenPolicy with
    | abort => exact h.log _
    | sentinel => exact (h.log _).auxPayload _

end AgreesAt

/-- Every class of an AUXCTL write is that of a row. -/
theorem auxClass_eq_auxInstr (edid : BitVec 7) (p : Port) (v d1 : Word) :
    ∃ row, auxClass edid p v d1 = auxInstr row p v d1 := by
  unfold auxClass
  split_ifs
  · exact ⟨.auxreqClear, rfl⟩
  · exact ⟨.auxreqStop, rfl⟩
  · exact ⟨.auxreqAddr0, rfl⟩
  · exact ⟨.auxreqStartEdid, rfl⟩
  · exact ⟨.auxreqStartOther, rfl⟩
  · exact ⟨.auxreqSeek, rfl⟩
  · exact ⟨.auxreqWriteOther, rfl⟩
  · exact ⟨.auxreqRead, rfl⟩
  · exact ⟨.auxreqReadBadlen, rfl⟩

section
variable {p : Port} {s u : State}

theorem awCtl_agrees (h : AgreesAt p s.beginStep u.beginStep) (v : Word) :
    ResultsAgree p (exec (.awCtl p v) s) (exec (.awCtl p v) u) := by
  have hParams : s.params = u.params := h.params
  have hAux : s.aux.get p = u.aux.get p := h.aux
  rw [exec_awCtl_eq, exec_awCtl_eq, hParams, hAux]
  obtain ⟨row, hRow⟩ := auxClass_eq_auxInstr u.params.edidAddr p v (u.aux.get p).data1
  rw [hRow]
  exact h.auxInstr row v _

theorem ar_agrees (h : AgreesAt p s.beginStep u.beginStep) (off : Byte) :
    ResultsAgree p (exec (.ar p off) s) (exec (.ar p off) u) := by
  have hAux : s.aux.get p = u.aux.get p := h.aux
  cases hReg : auxRegister off with
  | none =>
    simp only [exec, execAr, hReg]
    exact h.endWith _
  | some r =>
    simp only [exec, execAr, hReg, hAux]
    exact ⟨_, _, rfl, rfl, h.setResponse _⟩

/-- An operation that names `p` agrees where the states do. -/
theorem exec_agrees {i : Instr} (h : AgreesAt p s.beginStep u.beginStep) (hPort : auxPort i = some p) :
    ResultsAgree p (exec i s) (exec i u) := by
  cases i <;> cases hPort
  case awCtl.refl v => exact awCtl_agrees h v
  case awData1.refl v => exact h.auxStore .data1 v
  case awData2.refl v => exact h.auxStore .data2 v
  case awData3.refl v => exact h.auxStore .data3 v
  case awData4.refl v => exact h.auxStore .data4 v
  case awData5.refl v => exact h.auxStore .data5 v
  case awBadoff.refl => exact h.endWith _
  case ar.refl off => exact ar_agrees h off
  case auxreqClear.refl v d1 => exact h.auxInstr .auxreqClear v d1
  case auxreqStop.refl v d1 => exact h.auxInstr .auxreqStop v d1
  case auxreqAddr0.refl v d1 => exact h.auxInstr .auxreqAddr0 v d1
  case auxreqStartEdid.refl v d1 => exact h.auxInstr .auxreqStartEdid v d1
  case auxreqStartOther.refl v d1 => exact h.auxInstr .auxreqStartOther v d1
  case auxreqSeek.refl v d1 => exact h.auxInstr .auxreqSeek v d1
  case auxreqWriteOther.refl v d1 => exact h.auxInstr .auxreqWriteOther v d1
  case auxreqRead.refl v d1 => exact h.auxInstr .auxreqRead v d1
  case auxreqReadBadlen.refl v d1 => exact h.auxInstr .auxreqReadBadlen v d1

end

/-- Settles O57: beginning a step empties both responses, and the operation keeps the agreement. -/
theorem auxReadsOnlyItsPort : Obligations.AuxReadsOnlyItsPort := by
  intro i p s₁ s₂ t₁ t₂ hPort hParams hAux hCfg hLen hTransport h₁ h₂
  have hBegun : AgreesAt p s₁.beginStep s₂.beginStep := ⟨hParams, hAux, hCfg, hLen, hTransport, rfl⟩
  obtain ⟨u₁, u₂, hu₁, hu₂, hAgree⟩ := exec_agrees hBegun hPort
  obtain rfl := Host.Outcome.next.inj (hu₁.symm.trans h₁)
  obtain rfl := Host.Outcome.next.inj (hu₂.symm.trans h₂)
  exact ⟨hAgree.response, hAgree.aux, hAgree.transport⟩

end Sys2Proof.Machine
end
